-- ==== Sys2Proof/Word.lean ====
section
/-! DEFINITION. The bit vectors of the JB-740: bytes, 32-bit addresses (00_scope, Conventions), and the data
lanes of a bus transfer. -/

namespace Sys2Proof

/-- One byte. -/
abbrev Byte := BitVec 8

/-- A 32-bit byte address (00_scope, "Addresses are 32-bit byte addresses"). -/
abbrev Addr := BitVec 32

/-- The data lanes of one transfer: at most 8 beats of 8 bytes (R112, R122). Byte `i` of the transfer is bits
`8i + 7 … 8i`, so the byte of the lowest address is the lowest. A transfer of `n` bytes uses the lowest `n`. -/
abbrev Payload := BitVec 512

end Sys2Proof
end

