-- ==== Sys2Proof/Syntax.lean ====
section
/-! DEFINITION. The commands of the JB-740: one constructor of `Instr` for each row of spec/opcode_table.json,
and the types of their operands. -/

namespace Sys2Proof

/-- READ or WRITE (R112). -/
inductive AccessKind
  | read | write
deriving DecidableEq, Repr

/-- Supervisor or user privilege (R112). -/
inductive Priv
  | usr | sup
deriving DecidableEq, Repr

/-- The sizes of a single access (R64, R112). -/
inductive Size
  | b1 | b2 | b4 | b8
deriving DecidableEq, Repr

/-- The number of bytes of a size. -/
def Size.bytes : Size → Nat
  | .b1 => 1
  | .b2 => 2
  | .b4 => 4
  | .b8 => 8

/-- The shape of an access: a single access, or a burst with its length field in beats of 8 bytes (R64, R112). -/
inductive Shape
  | single (size : Size)
  | burst (beats : Nat)
deriving DecidableEq, Repr

/-- The bytes an access of a shape covers: its size, or 8 bytes for each beat (R25, R64). -/
def Shape.bytes : Shape → Nat
  | .single size => size.bytes
  | .burst beats => 8 * beats

/-- One request as the master bus presents it (R112). The data lanes are used by a WRITE alone. -/
structure BusRequest where
  kind   : AccessKind
  addr   : Addr
  shape  : Shape
  data   : Payload
  master : Fin 16
  priv   : Priv
deriving DecidableEq, Repr

/-- The status of a memory response (R122). -/
inductive Status
  | okay | error
deriving DecidableEq, Repr

/-- The commands, in the order of spec/opcode_table.json. -/
inductive Instr
  | upstreamRequest (request : BusRequest)
  | readAnswerTaken
  | requestTaken
  | arbiterGrant
  | requestNone (tag : Byte)
  | refusedCommand (code tag : Byte)
  | activate (tag : Byte)
  | deactivate (tag : Byte)
  | purge (tag : Byte)
  | flush (tag : Byte)
  | ringRestart (tag : Byte)
  | clearStatus (tag : Byte)
  | consumedWrite (index : BitVec 16)
  | downstreamResponse (slot : Fin 8) (status : Status) (data : Payload)
  | responseTimerExpiry (slot : Fin 8)
  | stalePeriodExpiry (slot : Fin 8)
  | ageTimerExpiry (line : Fin 64)
  | drainBegin
  | discard
  | ringReleased
  | ringTakeRecord
  | ringRestartCarryOut
  /-- `parity` is the parity bit as received; `stop` says that the stop bit was found at the stop level. -/
  | characterArrival (data : Byte) (parity stop : Bool)
  | gapTimerExpiry
  | parserTakeByte
  | read (register : Byte)
  | write (register : Byte) (data : BitVec 32)
  | writeCbBase (data : BitVec 32)
  | forceBypass
  | clearFlags
  | restart
  | mlctsAsserted
  | responseSent
  | rstnAssert
  | rstnRelease (cbsel : BitVec 3) (mlrate : BitVec 2)
  | mlctsDeasserted
  | responseByteSent
  | startBitBegun
  | mlrxStopLevelRestored
deriving DecidableEq, Repr

end Sys2Proof
end

