-- ==== Sys2Proof/WellFormed.lean ====
section
/-! DEFINITION. Which terms of `Instr` are commands of the table. -/

namespace Sys2Proof

/-- The burst length field holds 1 to 8 beats (R112). A length of 1 is a request the bus can present; the
Request Path refuses it (R65, R112). -/
def Shape.wf : Shape → Bool
  | .single _ => true
  | .burst beats => 1 ≤ beats && beats ≤ 8

/-- A request the master bus can encode (R112). -/
def BusRequest.wf (r : BusRequest) : Bool := r.shape.wf

/-- The number of the register CB_BASE, the one register that takes a management WRITE (R172). -/
def cbBaseRegister : Byte := 0x06

/-- A REQUEST command code that names none of the six commands and is not NONE (R151, R184). -/
def unknownCode (code : Byte) : Bool := decide (7 ≤ code.toNat)

/-- The operands a row of the table takes. Three rows have a condition; the others take every value. -/
def Instr.wf : Instr → Bool
  | .upstreamRequest r => r.wf
  | .refusedCommand code _ => unknownCode code
  | .write register _ => register != cbBaseRegister
  | .readAnswerTaken | .requestTaken | .arbiterGrant | .requestNone _ | .activate _ | .deactivate _ | .purge _
  | .flush _ | .ringRestart _ | .clearStatus _ | .consumedWrite _ | .downstreamResponse _ _ _
  | .responseTimerExpiry _ | .stalePeriodExpiry _ | .ageTimerExpiry _ | .drainBegin | .discard | .ringReleased
  | .ringTakeRecord | .ringRestartCarryOut | .characterArrival _ _ _ | .gapTimerExpiry | .parserTakeByte | .read _
  | .writeCbBase _ | .forceBypass | .clearFlags | .restart | .mlctsAsserted | .responseSent | .rstnAssert
  | .rstnRelease _ _ | .mlctsDeasserted | .responseByteSent | .startBitBegun | .mlrxStopLevelRestored => true

end Sys2Proof
end

