-- ==== Sys2Proof/Config.lean ====
section
/-! DEFINITION. What is fixed for the part, and the free values: constants without a body, of which nothing can
be proved but what holds for every value. -/

namespace Sys2Proof

/-- FREE VALUE (log 9). The spec says that several write-backs start at one moment (FLUSH, R105; the beginning of
DRAINING, R108) and gives no order among them at the write-back engine. The first argument is the state's counter
`freeTick`, the second the line's number; lines are queued by rising rank. -/
opaque Config.startRank : Nat → Nat → Nat

/-- Requests the intake queue holds, and reads the order list holds (R113, R114). -/
def Config.portDepth : Nat := 16

/-- Entries of the Window Cache (R49). -/
def Config.windowEntries : Nat := 32

/-- Operations of a pending list (R82). -/
def Config.pendingDepth : Nat := 8

/-- Records of the record queue (R130). -/
def Config.recordDepth : Nat := 8

/-- Entries of the mirror's ACK list (R163). -/
def Config.ackDepth : Nat := 4

/-- Bytes of the link's receive buffer (R167). -/
def Config.bufferDepth : Nat := 8

/-- The value of the management register ID (R172). -/
def Config.partId : BitVec 32 := 0x4A4C0740

end Sys2Proof
end

