-- ==== Sys2Proof/Machine/State.lean ====
section
/-! DEFINITION. The state of the JB-740, block by block as the table "The blocks" of 00_scope lists them, the
reasons a step can stop, and the state after reset. -/

namespace Sys2Proof.Machine

/-! ### Counter records and operations (spec/01) -/

/-- A counter record without its reserved bits (R1, R2). VALUE is 56-bit two's complement, so every VALUE the
model holds lies within −2^55 … 2^55−1. -/
structure Record where
  value : BitVec 56
  ovf   : Bool
  hit   : Bool
  arm   : Bool
deriving DecidableEq, Repr

/-- The record of eight zero bytes. -/
def Record.zero : Record := ⟨0, false, false, false⟩

/-- ORDER of a window (R3). -/
inductive Order
  | little | big
deriving DecidableEq, Repr

/-- POLICY of a window (R7). -/
inductive Policy
  | wrap | clamp
deriving DecidableEq, Repr

/-- ROUND of a window, without the fourth code, which is malformed (R13, R30). -/
inductive Round
  | trunc | halfUp | halfEven
deriving DecidableEq, Repr

/-- The nine write-type operations (R5). -/
inductive OpKind
  | add | tally | wadd | peak | valley | peakMag | load | preset | rearm
deriving DecidableEq, Repr

/-- The operation fields of a descriptor, and the snapshot of them that a pending operation carries (R29, R87).
OP is kept as read, since it is ignored in windows whose KIND is not ACCUMULATE (R49). -/
structure Params where
  op     : BitVec 4
  signed : Bool
  policy : Policy
  round  : Round
  shift  : BitVec 5
  weight : BitVec 16
  watch  : BitVec 6
deriving DecidableEq, Repr

/-- The access description of a request (R70, R129). -/
structure Access where
  kind  : AccessKind
  priv  : Priv
  shape : Shape
deriving DecidableEq, Repr

/-- The master, the access description and the upstream address of a request, as event records carry them. -/
structure Origin where
  master : Fin 16
  access : Access
  addr   : Addr
deriving DecidableEq, Repr

/-- The origin held where no request is concerned. -/
def Origin.zero : Origin := ⟨0, ⟨.read, .usr, .single .b1⟩, 0⟩

/-- A write-type operation as it is handed to the Accumulator Cache (R70, R87). -/
structure PendingOp where
  kind    : OpKind
  operand : Int
  params  : Params
  origin  : Origin
deriving DecidableEq, Repr

/-- How a counter read is answered: presented bytes (R3), the clamped view (R22) or a DRAIN read (R19). -/
inductive View
  | presented (order : Order) (offset : Nat) (size : Size)
  | clamped (order : Order) (size : Size)
  | drain (order : Order)
deriving DecidableEq, Repr

/-! ### Windows (spec/02, spec/03) -/

/-- USER_RIGHTS without the fourth code, and the rights an access is judged against (R27, R31). -/
inductive Rights
  | noAccess | readOnly | full
deriving DecidableEq, Repr

/-- KIND of a window (R29). -/
inductive WindowKind
  | direct | accumulate | clampedView | drain
deriving DecidableEq, Repr

/-- A decoded window descriptor: every field of R29 from KIND to WATCH. -/
structure Descriptor where
  kind       : WindowKind
  backing    : Addr
  userRights : Rights
  strict     : Bool
  groups     : BitVec 4
  order      : Order
  params     : Params
deriving DecidableEq, Repr

/-- An entry of the Window Cache (R49). -/
structure WindowEntry where
  window       : Nat
  dirAddr      : Addr
  descAddr     : Addr
  dirRights    : Rights
  desc         : Descriptor
  touchedKnown : Bool
  changedKnown : Bool
deriving DecidableEq, Repr

/-- The causes of a fault (R129). -/
inductive Cause
  | dirAbsent | winAbsent | malformed | rights | group | shape | boundary | tableError
deriving DecidableEq, Repr

/-- A fault as it is found: its cause, and the DETAIL and backing fields of its record (R47, R77). -/
structure FaultInfo where
  cause   : Cause
  detail  : Nat
  backing : Option Addr
deriving DecidableEq, Repr

/-- The phases of the Window Walker (R35). -/
inductive WalkPhase
  | idle | dirRead | descRead | locked | unlocking | releasing
deriving DecidableEq, Repr

/-- The Window Walker (R35). The span request it serves is the one the Request Path holds. -/
structure Walker where
  phase         : WalkPhase
  /-- the phase's memory request has been granted; while clear it is still offered to the arbiter (R117) -/
  issued        : Bool
  window        : Nat
  dirAddr       : Addr
  descAddr      : Addr
  dirEntry      : BitVec 64
  descRead      : BitVec 128
  dirRights     : Rights
  /-- the backing address formed before the locked update (R47) -/
  priorBacking  : Addr
  /-- the request needs CHANGED by R41 -/
  needChanged   : Bool
  /-- the fault found by the second judgement, if it failed (R43, R44) -/
  verdict       : Option FaultInfo
deriving DecidableEq, Repr

/-- The walker in IDLE, holding nothing (R35). -/
def Walker.idle : Walker := ⟨.idle, false, 0, 0, 0, 0, 0, .noAccess, 0, false, none⟩

/-! ### Event records (spec/07) -/

/-- The kinds of event record (R129). -/
inductive EventKind
  | threshold | fault | fillLost | writeError | halt
deriving DecidableEq, Repr

/-- An event record (R129). `backing` is HAS_BACKING with BACKING_ADDRESS; `access` is the ACCESS byte of 11.5. -/
structure EventRecord where
  kind     : EventKind
  cause    : Option Cause
  master   : Fin 16
  access   : Byte
  upstream : Addr
  backing  : Option Addr
  detail   : BitVec 32
  before   : Record
  after    : Record
deriving DecidableEq, Repr

/-! ### The Upstream Port and the Request Path (spec/06) -/

/-- A request in the intake queue or held by the Request Path (R112, R113). A read carries the serial number of
its entry in the read-response order list. -/
structure Request where
  kind   : AccessKind
  addr   : Addr
  shape  : Shape
  data   : List Byte
  master : Fin 16
  priv   : Priv
  readId : Option Nat
deriving DecidableEq, Repr

/-- The status of an answer to a master (R114). -/
inductive AnswerStatus
  | okay | fault
deriving DecidableEq, Repr

/-- The answer to a read (R114). -/
structure Answer where
  status : AnswerStatus
  data   : List Byte
deriving DecidableEq, Repr

/-- An entry of the read-response order list (R114). `id` names the read's place for the blocks that answer it. -/
structure ReadEntry where
  id     : Nat
  master : Fin 16
  bytes  : Nat
  answer : Option Answer
deriving DecidableEq, Repr

/-- The Upstream Port (R113, R114, R118). -/
structure UpstreamPort where
  intake     : List Request
  reads      : List ReadEntry
  nextRead   : Nat
  /-- the soft restart is emptying the port (R118) -/
  restarting : Bool
deriving DecidableEq, Repr

/-- The progress of the request that the Request Path holds (R116, R117). -/
inductive Stage
  /-- a walk or a locked update is being made for it -/
  | walking
  /-- a forwarded access, at its downstream address, that is settling or waiting for issue -/
  | forward (addr : Addr) (direct : Bool)
  /-- a counter read with no line, waiting for issue (R99) -/
  | counterRead (backing : Addr) (view : View)
  /-- an operation not yet handed over: an allocation waits (R85) or the pending list is full (R87) -/
  | operation (op : PendingOp) (backing : Addr)
  /-- a DRAIN read not yet handed over: its allocation waits (R85) -/
  | drainRead (backing : Addr) (order : Order)
  /-- a read waiting on a FILLING line (R98, R100) -/
  | onLine (line : Fin 64) (view : View)
deriving DecidableEq, Repr

/-- The request the Request Path holds, with its progress (R116). -/
structure Held where
  req   : Request
  stage : Stage
deriving DecidableEq, Repr

/-! ### The Accumulator Cache (spec/05) -/

/-- The states of a line (R82). -/
inductive LineState
  | free | filling | clean | dirty | writing
deriving DecidableEq, Repr

/-- A line of the Accumulator Cache (R82). `age` is the interval its timer was started with, or none while it is
stopped. `cause` is the origin of the operation or DRAIN read that caused the allocation (R90). -/
structure Line where
  state     : LineState
  backing   : Addr
  record    : Record
  pending   : List PendingOp
  age       : Option Nat
  flushMark : Bool
  evict     : Bool
  redirty   : Bool
  writeCopy : Record
  covers    : Bool
  cause     : Origin
deriving DecidableEq, Repr

/-- A FREE line; its other fields are without meaning (R82) and hold one fixed value (log 21). -/
def Line.empty : Line :=
  ⟨.free, 0, .zero, [], none, false, false, false, .zero, false, .zero⟩

/-- The Accumulator Cache (R82, R83, R88, R92, R96). `order` is the use order of the lines that are not FREE,
least recently used first; the two queues hold the lines whose fill or write is not yet issued, oldest first. -/
structure AccCache where
  lines       : Vector Line 64
  order       : List (Fin 64)
  fillQueue   : List (Fin 64)
  writeQueue  : List (Fin 64)
  ageInterval : Nat
deriving DecidableEq, Repr

/-! ### The Downstream Port (spec/06) -/

/-- A request to memory (R122). LOCKED_READ and UNLOCKING_WRITE have 16 bytes. -/
inductive MemRequest
  | read (addr : Addr) (shape : Shape)
  | write (addr : Addr) (shape : Shape) (data : List Byte)
  | lockedRead (addr : Addr)
  | unlockingWrite (addr : Addr) (data : List Byte)
  | release (addr : Addr)
deriving DecidableEq, Repr

/-- Whose request a slot holds, with what its completion needs (R119, R125). -/
inductive Purpose
  | forwardedRead (readId : Nat) (bytes : Nat)
  | forwardedWrite (origin : Origin) (backing : Option Addr)
  | counterRead (readId : Nat) (view : View)
  | dirRead
  | descRead
  | lockedRead
  | unlockingWrite
  | release
  | fill (line : Fin 64)
  | writeBack (line : Fin 64)
  | configRead
  | ringRecord
  | ringProduced
  | mirror
deriving DecidableEq, Repr

/-- The states of a downstream slot (R123). `counting` says that the STALE period runs: the period of a slot made
STALE by RSTn starts at the release (R127). -/
inductive SlotState
  | free
  | waiting (request : MemRequest) (purpose : Purpose)
  | held (request : MemRequest) (purpose : Purpose) (status : Status) (data : Payload)
  | stale (counting : Bool)
deriving DecidableEq, Repr

/-- A downstream slot, and whether it still owes a late response (R124). -/
structure Slot where
  state : SlotState
  owes  : Bool
deriving DecidableEq, Repr

/-- The five requesters of the arbiter (R128). -/
inductive Requester
  | writeBack | fill | path | ring | mirror
deriving DecidableEq, Repr

/-- The Downstream Port (R123, R126, R128). `issueOrder` lists the WAITING and HELD slots, oldest first; `lock` is
the descriptor address under lock. -/
structure DownPort where
  slots       : Vector Slot 8
  issueOrder  : List (Fin 8)
  lock        : Option Addr
  lastGranted : Requester
deriving DecidableEq, Repr

/-! ### The Event Ring Writer (spec/07) -/

/-- The ring states (R131). -/
inductive RingState
  | inactive | active | broken
deriving DecidableEq, Repr

/-- The writer's phases (R131). -/
inductive RingPhase
  | idle | record | index
deriving DecidableEq, Repr

/-- The request whose PRODUCED write of 0 is being made (R138, R139). -/
inductive ZeroWrite
  | activate | restart
deriving DecidableEq, Repr

/-- The Event Ring Writer (R130, R131). `size` is the code n; the ring holds 2^n records. -/
structure RingWriter where
  queue      : List EventRecord
  state      : RingState
  base       : Addr
  size       : Nat
  attnEnable : Bool
  produced   : BitVec 16
  consumed   : BitVec 16
  phase      : RingPhase
  /-- the phase's write has been granted; while clear it is still offered (R134, R135) -/
  issued     : Bool
  inHand     : Option EventRecord
  /-- a restart pending, with the new base and size (R139) -/
  restart    : Option (Addr × Nat)
  zeroWrite  : Option ZeroWrite
deriving DecidableEq, Repr

/-! ### The Control Monitor (spec/08) -/

/-- The modes (R147). -/
inductive Mode
  | bypass | active | draining | halted
deriving DecidableEq, Repr

/-- The fatal causes (R147). -/
inductive FatalCause
  | noCause | writebackError
deriving DecidableEq, Repr

/-- The six commands of the REQUEST word (R151). -/
inductive Command
  | activate | deactivate | purge | flush | ringRestart | clearStatus
deriving DecidableEq, Repr

/-- The request in progress: a command with its tag, source BLOCK, or a forced bypass, source LINK (R146). -/
inductive ControlRequest
  | block (command : Command) (tag : Byte)
  | link
deriving DecidableEq, Repr

/-- The holds on the Request Path (R146). -/
inductive Hold
  | activateLoad | ringLoad | drainStart
deriving DecidableEq, Repr

/-- The configuration read of ACTIVATE or RING_RESTART (R153, R158, R160). -/
inductive ConfigRead
  | idle
  | offered
  | inFlight (abandoned : Bool)
deriving DecidableEq, Repr

/-- Where the bridge stands on its way to BYPASS (R149, R150). -/
inductive Leaving
  | stay
  /-- the hold DRAIN_START is placed or in force (R149, steps 2 and 3) -/
  | starting
  /-- the lines are being drained (R149, step 4) -/
  | draining
  /-- the discard waits for the fills and write-backs in flight (R150, step 1) -/
  | discarding
  /-- the ring release is awaited (R149, step 5; R150, step 3) -/
  | releasing
deriving DecidableEq, Repr

/-- The validation codes (R154). -/
inductive ConfigCode
  | configReadError | spanSizeBad | spanAlign | dirAlign | dirOverlap | cbOverlap | ringSizeBad | ringAlign
  | ringOverlap | ageBad
deriving DecidableEq, Repr

/-- The configuration loaded for the Request Path (R24, R146). AGE_INTERVAL stands in the Accumulator Cache and the
ring fields in the Event Ring Writer, where they are used. -/
structure LoadedConfig where
  spanBase : Addr
  spanSize : Nat
  dirBase  : Addr
  groupMap : BitVec 32
deriving DecidableEq, Repr

/-- The sticky flags that enter ANY_ERROR (R161). The ninth, FAULT_LATCHED, is set exactly while the fault latch
holds a record, and is read from there. -/
structure StickyFlags where
  overrun     : Bool
  ringBroken  : Bool
  indexError  : Bool
  dataLost    : Bool
  dropped     : Bool
  configError : Bool
  mirrorFault : Bool
  fatal       : Bool
deriving DecidableEq, Repr

/-- Every flag clear. -/
def StickyFlags.clear : StickyFlags := ⟨false, false, false, false, false, false, false, false⟩

/-- The fault latch (R162). -/
structure FaultLatch where
  record : Option EventRecord
  more   : Bool
deriving DecidableEq, Repr

/-- The outcomes of a control request (R152). -/
inductive AckOutcome
  | done | failed | configError | refusedCommand | refusedBusy | refusedMode | abandoned
deriving DecidableEq, Repr

/-- An ACK (R152). The outcome is absent in the ACK of all zeros alone (R184). -/
structure Ack where
  command : Byte
  tag     : Byte
  outcome : Option AckOutcome
  detail  : Byte
deriving DecidableEq, Repr

/-- The ACK of all zeros (R164, R165). -/
def Ack.zeros : Ack := ⟨0, 0, none, 0⟩

/-- The status mirror (R163, R164). -/
structure Mirror where
  modePending     : Bool
  statusPending   : Bool
  faultPending    : Bool
  producedPending : Bool
  acks            : List Ack
  /-- the last ACK formed since the last reset (R164) -/
  lastAck         : Option Ack
  inFlight        : Bool
deriving DecidableEq, Repr

/-- A word recognised in an observed write (R145). -/
inductive ControlWord
  | request (code tag : Byte)
  | consumed (index : BitVec 16)
deriving DecidableEq, Repr

/-- The Control Monitor (R146). `hold` is in force; `placed` is a hold that has not yet taken effect (R117).
`recognised` holds the words of the write just presented until their own rows, or the next step that could tell, take
them (log 3). -/
structure ControlMonitor where
  cbBase     : Addr
  mode       : Mode
  fatalCause : FatalCause
  inProgress : Option ControlRequest
  hold       : Option Hold
  placed     : Option Hold
  configRead : ConfigRead
  leaving    : Leaving
  config     : LoadedConfig
  configCode : Option ConfigCode
  flags      : StickyFlags
  latch      : FaultLatch
  mirror     : Mirror
  recognised : List ControlWord
deriving DecidableEq, Repr

/-! ### The Management Link (spec/09) and the pins (spec/10) -/

/-- A byte of the receive buffer with its mark (R167). -/
structure LinkByte where
  byte       : Byte
  followsGap : Bool
deriving DecidableEq, Repr

/-- A complete command that has passed steps 1 and 2 of R171 and is to be carried out. -/
inductive LinkCommand
  | read (register : Byte)
  | write (register : Byte) (data : BitVec 32)
  | forceBypass
  | clearFlags
  | restart
deriving DecidableEq, Repr

/-- The frame parser (R170) with the transmitter (R171): SERVING is split into a command not yet carried out and a
response being sent, of which `rest` are the bytes not yet sent whole and `begun` says that the first of them has
been begun. -/
inductive Parser
  | idle
  | assembling (bytes : List Byte)
  | serving (command : LinkCommand)
  | responding (rest : List Byte) (begun : Bool) (thenRestart : Bool)
deriving DecidableEq, Repr

/-- The line error flags (R166 to R171). -/
structure LineErrors where
  framing        : Bool
  parity         : Bool
  overrunLine    : Bool
  timeoutDiscard : Bool
  badCheckSeen   : Bool
deriving DecidableEq, Repr

/-- Every line error flag clear. -/
def LineErrors.clear : LineErrors := ⟨false, false, false, false, false⟩

/-- The Management Link (R166 to R171, R177). -/
structure Link where
  rate        : BitVec 2
  buffer      : List LinkByte
  /-- the next byte appended carries the follows-gap mark (R168) -/
  gapAwaiting : Bool
  gapRunning  : Bool
  /-- a start bit has begun and its character has not yet arrived (R168) -/
  receiving   : Bool
  /-- the receiver waits for the stop level after a framing error (R166) -/
  awaitStop   : Bool
  discard     : Bool
  parser      : Parser
  errors      : LineErrors
deriving DecidableEq, Repr

/-- The inputs whose level the blocks look at between steps: the filtered RSTn (R179) and MLCTS (R171). -/
structure Pins where
  rstnAsserted  : Bool
  mlctsAsserted : Bool
deriving DecidableEq, Repr

/-! ### The whole machine -/

/-- The state of the JB-740, and the queue of commands that wait. -/
structure State where
  up       : UpstreamPort
  path     : Option Held
  walker   : Walker
  /-- the Window Cache in use order, least recently used first (R50) -/
  windows  : List WindowEntry
  acc      : AccCache
  down     : DownPort
  ring     : RingWriter
  cm       : ControlMonitor
  link     : Link
  pins     : Pins
  /-- the counter that the free order of simultaneous write-back starts is applied to (log 9) -/
  freeTick : Nat
  pending  : List Instr
deriving DecidableEq, Repr

/-- The reasons the machine stops with a fault. There are none: the spec gives every step of the bridge a defined
result (R23, R125), and what it calls a fault is an answer and a record, not a stop. Safe. -/
inductive Fault
deriving DecidableEq, Repr

/-- The reasons a step is refused. -/
inductive Refusal
  /-- Raised by `exec` for a command whose meaning is not written yet. Safe. -/
  | notModelled (mnemonic : String)
  /-- Raised by UPSTREAM_REQUEST, REFUSED_COMMAND and WRITE for a term that is no command of the table: it fails
  `Instr.wf` (log 22). Safe. -/
  | illFormedCommand
deriving DecidableEq, Repr

/-! ### Reset -/

/-- CB_BASE after RSTn: CBSEL × 32 MiB + 64 KiB (R144). -/
def cbBaseOfStrap (cbsel : BitVec 3) : Addr := BitVec.ofNat 32 (cbsel.toNat * 0x2000000 + 0x10000)

/-- The Upstream Port after RSTn (R118). -/
def UpstreamPort.reset : UpstreamPort := ⟨[], [], 0, false⟩

/-- The Accumulator Cache after either reset (R111). -/
def AccCache.reset : AccCache := ⟨Vector.replicate 64 Line.empty, [], [], [], 0⟩

/-- The Downstream Port with nothing in flight; the arbiter stands as though the mirror had been granted last
(R127). -/
def DownPort.reset : DownPort := ⟨Vector.replicate 8 ⟨.free, false⟩, [], none, .mirror⟩

/-- The Event Ring Writer after either reset (R141). -/
def RingWriter.reset : RingWriter := ⟨[], .inactive, 0, 4, false, 0, 0, .idle, false, none, none, none⟩

/-- The mirror after either reset: MODE_STATUS, STATUS and PRODUCED pending, one ACK of zeros (R165, R181). -/
def Mirror.reset : Mirror := ⟨true, true, false, true, [Ack.zeros], none, false⟩

/-- The loaded configuration after a reset, which is without meaning (R165; log 7). -/
def LoadedConfig.unloaded : LoadedConfig := ⟨0, 0, 0, 0⟩

/-- The Control Monitor after either reset, at a given CB_BASE (R165). -/
def ControlMonitor.reset (cbBase : Addr) : ControlMonitor :=
  ⟨cbBase, .bypass, .noCause, none, none, none, .idle, .stay, .unloaded, none, .clear, ⟨none, false⟩, .reset, []⟩

/-- The Management Link after RSTn, with the sampled bit rate (R177). -/
def Link.reset (rate : BitVec 2) : Link := ⟨rate, [], false, false, false, false, false, .idle, .clear⟩

/-- The machine right after RSTn, with both straps 0, nothing in flight in memory and the board controller ready
(R180; log 6). -/
def State.reset : State where
  up       := .reset
  path     := none
  walker   := .idle
  windows  := []
  acc      := .reset
  down     := .reset
  ring     := .reset
  cm       := .reset (cbBaseOfStrap 0)
  link     := .reset 0
  pins     := ⟨false, true⟩
  freeTick := 0
  pending  := []

end Sys2Proof.Machine
end

