-- ==== Sys2Proof/Machine/Bytes.lean ====
section
/-! DEFINITION. Byte order, bit fields and byte ranges (spec/11, R182; 00_scope, "An address is aligned to a size"). -/

namespace Sys2Proof.Machine

/-- The little-endian integer of a list of bytes (R182). -/
def leNat : List Byte → Nat
  | [] => 0
  | b :: bs => b.toNat + 256 * leNat bs

/-- The `n` low bytes of an integer, least significant first (R182). -/
def leBytes : Nat → Nat → List Byte
  | 0, _ => []
  | n + 1, v => BitVec.ofNat 8 v :: leBytes n (v / 256)

/-- The first `n` bytes of a transfer. -/
def laneBytes (n : Nat) (p : Payload) : List Byte := leBytes n p.toNat

/-- "All ones": one byte of FFh for each byte the answer carries (R115). -/
def allOnes (n : Nat) : List Byte := List.replicate n 0xFF

/-- The sum of bytes modulo 256, the check byte of a link frame (R170, R171). -/
def checkSum (bytes : List Byte) : Byte := bytes.foldl (· + ·) 0

/-- Two byte ranges, each a start and a length, share at least one byte (R154). Ranges do not wrap (log 10). -/
def overlaps (a m b n : Nat) : Bool := decide (0 < m ∧ 0 < n ∧ a < b + n ∧ b < a + m)

/-- The range of `m` bytes from `a` lies inside the range of `n` bytes from `b`. -/
def inside (a m b n : Nat) : Bool := decide (b ≤ a ∧ a + m ≤ b + n)

/-- `a` is a whole multiple of `n` (00_scope). -/
def alignedTo (a n : Nat) : Bool := a % n == 0

end Sys2Proof.Machine
end

