-- ==== Sys2Proof/Machine/Formats.lean ====
section
/-! DEFINITION. The memory formats of spec/11: what the bridge reads from memory is decoded here, and what it
writes is encoded here. -/

namespace Sys2Proof.Machine

/-! ### 11.2 Counter record -/

/-- The record in 8 bytes of memory: the reserved bits are dropped, whatever they hold (R2, 11.2). -/
def Record.decode (w : BitVec 64) : Record :=
  ⟨w.extractLsb' 0 56, w.getLsbD 56, w.getLsbD 57, w.getLsbD 58⟩

/-- The 8 bytes of a record as one little-endian number, the reserved bits 0 (R2, 11.2). -/
def Record.word (r : Record) : BitVec 64 :=
  0#5 ++ BitVec.ofBool r.arm ++ BitVec.ofBool r.hit ++ BitVec.ofBool r.ovf ++ r.value

/-- The record in stored order. -/
def Record.bytes (r : Record) : List Byte := leBytes 8 r.word.toNat

/-- The record taken from a memory response. -/
def Record.ofLanes (p : Payload) : Record := .decode (p.setWidth 64)

/-! ### 11.3 Directory entry -/

/-- USER_RIGHTS; the fourth code is malformed (R28, R30, R184). -/
def Rights.decode (c : BitVec 2) : Option Rights :=
  match c.toNat with
  | 0 => some .noAccess
  | 1 => some .readOnly
  | 2 => some .full
  | _ => none

/-- An address held as a count of 2 KiB units (R182). -/
def unitAddr (count : BitVec 21) : Addr := (count ++ 0#11 : BitVec 32)

/-- A directory entry as read, its fields not judged (11.3). -/
structure DirFields where
  present    : Bool
  userRights : Option Rights
  tableBase  : Addr
deriving DecidableEq, Repr

/-- The fields of a directory entry (11.3); reserved positions are ignored (R183). -/
def DirFields.decode (w : BitVec 64) : DirFields :=
  ⟨w.getLsbD 0, Rights.decode (w.extractLsb' 1 2), unitAddr (w.extractLsb' 32 21)⟩

/-! ### 11.4 Window descriptor -/

/-- KIND; the codes 4 … 7 are malformed (R30, R184). -/
def WindowKind.decode (c : BitVec 3) : Option WindowKind :=
  match c.toNat with
  | 0 => some .direct
  | 1 => some .accumulate
  | 2 => some .clampedView
  | 3 => some .drain
  | _ => none

/-- ROUND; the fourth code is malformed (R30, R184). -/
def Round.decode (c : BitVec 2) : Option Round :=
  match c.toNat with
  | 0 => some .trunc
  | 1 => some .halfUp
  | 2 => some .halfEven
  | _ => none

/-- OP: the accumulate operation it names; the codes 7 … 15 name none (R30, R184). -/
def accumulateOp (c : BitVec 4) : Option OpKind :=
  match c.toNat with
  | 0 => some .add
  | 1 => some .tally
  | 2 => some .wadd
  | 3 => some .peak
  | 4 => some .valley
  | 5 => some .peakMag
  | 6 => some .load
  | _ => none

/-- WATCH is a bit number or NONE; 56 … 62 are malformed (R30). -/
def watchLegal (c : BitVec 6) : Bool := decide (c.toNat < 56 ∨ c.toNat = 63)

/-- PRESENT of a descriptor. -/
def descPresent (w : BitVec 128) : Bool := w.getLsbD 0

/-- TOUCHED of a descriptor as read: byte 12, bit 0. -/
def descTouched (w : BitVec 128) : Bool := w.getLsbD 96

/-- CHANGED of a descriptor as read: byte 12, bit 1. -/
def descChanged (w : BitVec 128) : Bool := w.getLsbD 97

/-- The fields of a descriptor, or none where a code is malformed by R30. That the backing overlaps the span is
judged apart, since it needs the span. -/
def Descriptor.decode (w : BitVec 128) : Option Descriptor :=
  match WindowKind.decode (w.extractLsb' 1 3), Rights.decode (w.extractLsb' 4 2), Round.decode (w.extractLsb' 14 2) with
  | some kind, some rights, some round =>
    let op := w.extractLsb' 16 4
    let watch := w.extractLsb' 80 6
    if watchLegal watch && (kind != .accumulate || (accumulateOp op).isSome) then
      some {
        kind := kind
        backing := unitAddr (w.extractLsb' 32 21)
        userRights := rights
        strict := w.getLsbD 6
        groups := w.extractLsb' 8 4
        order := if w.getLsbD 7 then .big else .little
        params := {
          op := op
          signed := w.getLsbD 12
          policy := if w.getLsbD 13 then .clamp else .wrap
          round := round
          shift := w.extractLsb' 24 5
          weight := w.extractLsb' 64 16
          watch := watch } }
    else none
  | _, _, _ => none

/-- The 16 bytes an UNLOCKING_WRITE writes for a request that passed: those read, with TOUCHED set and, if the
request needs it, CHANGED set (R44). -/
def descMarked (changed : Bool) (w : BitVec 128) : BitVec 128 :=
  w ||| (1#128 <<< 96) ||| (if changed then 1#128 <<< 97 else 0#128)

/-! ### 11.5 Event record -/

/-- The KIND byte. -/
def EventKind.code : EventKind → Byte
  | .threshold => 1
  | .fault => 2
  | .fillLost => 3
  | .writeError => 4
  | .halt => 5

/-- The CAUSE byte. -/
def Cause.code : Cause → Byte
  | .dirAbsent => 1
  | .winAbsent => 2
  | .malformed => 3
  | .rights => 4
  | .group => 5
  | .shape => 6
  | .boundary => 7
  | .tableError => 8

/-- The length code of the ACCESS byte (11.5). -/
def shapeLengthCode : Shape → Nat
  | .single .b1 => 0
  | .single .b2 => 1
  | .single .b4 => 2
  | .single .b8 => 3
  | .burst beats => beats % 16

/-- Burst, of the ACCESS byte. -/
def shapeIsBurst : Shape → Bool
  | .single _ => false
  | .burst _ => true

/-- The ACCESS byte (11.5). -/
def Access.byte (a : Access) : Byte :=
  BitVec.ofNat 8 ((if a.kind = .write then 1 else 0) + (if a.priv = .sup then 2 else 0)
    + (if shapeIsBurst a.shape then 4 else 0) + 16 * shapeLengthCode a.shape)

/-- The 32 bytes of an event record (11.5); absent fields are zero (R129). -/
def EventRecord.bytes (e : EventRecord) : List Byte :=
  [e.kind.code, (e.cause.map Cause.code).getD 0,
    BitVec.ofNat 8 (e.master.val + if e.backing.isSome then 128 else 0), e.access]
  ++ leBytes 4 e.upstream.toNat ++ leBytes 4 (e.backing.getD 0).toNat ++ leBytes 4 e.detail.toNat
  ++ e.before.bytes ++ e.after.bytes

/-! ### 11.6 Control block -/

/-- The configuration area as read (11.6); reserved positions are ignored (R183). -/
structure ConfigArea where
  spanBase    : Addr
  spanSize    : Nat
  dirBase     : Addr
  ringBase    : Addr
  ringSize    : Nat
  ageInterval : Nat
  groupMap    : BitVec 32
  attnEnable  : Bool
deriving DecidableEq, Repr

/-- The fields of the configuration area. -/
def ConfigArea.decode (p : Payload) : ConfigArea where
  spanBase    := p.extractLsb' 0 32
  spanSize    := (p.extractLsb' (8 * 0x04) 8).toNat
  dirBase     := p.extractLsb' (8 * 0x08) 32
  ringBase    := p.extractLsb' (8 * 0x10) 32
  ringSize    := (p.extractLsb' (8 * 0x14) 8).toNat
  ageInterval := (p.extractLsb' (8 * 0x18) 16).toNat
  groupMap    := p.extractLsb' (8 * 0x1C) 32
  attnEnable  := p.getLsbD (8 * 0x20)

/-- The command codes of the REQUEST word. -/
def Command.code : Command → Byte
  | .activate => 1
  | .deactivate => 2
  | .purge => 3
  | .flush => 4
  | .ringRestart => 5
  | .clearStatus => 6

/-- The outcome codes of the ACK word. -/
def AckOutcome.code : AckOutcome → Byte
  | .done => 1
  | .failed => 2
  | .configError => 3
  | .refusedCommand => 4
  | .refusedBusy => 5
  | .refusedMode => 6
  | .abandoned => 7

/-- The validation codes: the order numbers of R154. -/
def ConfigCode.number : ConfigCode → Nat
  | .configReadError => 1
  | .spanSizeBad => 2
  | .spanAlign => 3
  | .dirAlign => 4
  | .dirOverlap => 5
  | .cbOverlap => 6
  | .ringSizeBad => 7
  | .ringAlign => 8
  | .ringOverlap => 9
  | .ageBad => 10

/-- The ACK word. -/
def Ack.bytes (a : Ack) : List Byte :=
  [a.command, a.tag, (a.outcome.map AckOutcome.code).getD 0, a.detail, 0, 0, 0, 0]

/-- The mode code of MODE_STATUS and of the MODE register. -/
def Mode.code : Mode → Nat
  | .bypass => 0
  | .active => 1
  | .draining => 2
  | .halted => 3

/-- The fatal cause code. -/
def FatalCause.code : FatalCause → Nat
  | .noCause => 0
  | .writebackError => 1

/-- The PRODUCED word. -/
def producedWord (index : BitVec 16) : List Byte := leBytes 8 index.toNat

/-! ### Words recognised by the exact-cover rule -/

/-- Offset of the REQUEST word in the control block. -/
def requestOffset : Nat := 0x40

/-- Offset of the CONSUMED word in the control block. -/
def consumedOffset : Nat := 0x48

/-- The word that 8 bytes written at one address deliver (R145): command code in byte 0 and tag in byte 1 of
REQUEST, the index in bytes 0 and 1 of CONSUMED; the rest is reserved. -/
def controlWordAt (cbBase : Addr) (addr : Nat) (bytes : List Byte) : Option ControlWord :=
  if addr = cbBase.toNat + requestOffset then some (.request (bytes.getD 0 0) (bytes.getD 1 0))
  else if addr = cbBase.toNat + consumedOffset then
    some (.consumed (BitVec.ofNat 16 (leNat (bytes.take 2))))
  else none

/-- The words an observed write delivers, in beat order (R145): a single write of size 8, or any beat of a burst,
whose landing address is that of the word. -/
def controlWords (cbBase addr : Addr) (shape : Shape) (data : List Byte) : List ControlWord :=
  match shape with
  | .single .b8 => (controlWordAt cbBase addr.toNat data).toList
  | .single _ => []
  | .burst beats =>
    (List.range beats).filterMap fun i => controlWordAt cbBase (addr.toNat + 8 * i) (data.drop (8 * i))

end Sys2Proof.Machine
end

