-- ==== Sys2Proof/Machine/Operands.lean ====
section
/-! DEFINITION. Operand forms: how write data become an operand (R4), and how a record is presented to a read
(R3, R19, R22). -/

namespace Sys2Proof.Machine

/-- Bytes under an ORDER: kept under LITTLE, reversed under BIG (R3, R4, R22). -/
def Order.arrange (o : Order) (bytes : List Byte) : List Byte :=
  match o with
  | .little => bytes
  | .big => bytes.reverse

/-- The operand of a write: its bytes under ORDER, read as a little-endian integer, unsigned or two's complement
(R4). -/
def operandOf (order : Order) (signed : Bool) (data : List Byte) : Int :=
  let n := leNat (order.arrange data)
  if signed && decide (2 ^ (8 * data.length) ≤ 2 * n) then (n : Int) - (2 : Int) ^ (8 * data.length) else n

/-- The presented record: the stored bytes, or the same bytes in reverse order (R3). -/
def presentedRecord (order : Order) (r : Record) : List Byte := order.arrange r.bytes

/-- The bits of the signed range of a clamped view by its size (R22). -/
def viewBits : Size → Nat
  | .b1 => 8
  | .b2 => 16
  | .b4 => 32
  | .b8 => 48

/-- An integer saturated to the signed range of `bits` bits (R22). -/
def saturate (bits : Nat) (x : Int) : Int :=
  max (-(2 : Int) ^ (bits - 1)) (min ((2 : Int) ^ (bits - 1) - 1) x)

/-- The clamped view of a VALUE at a size (R22). -/
def clampedValue (size : Size) (r : Record) : Int := saturate (viewBits size) r.value.toInt

/-- The bytes of the clamped view (R22): the saturated value in two's complement at the size, under ORDER. -/
def clampedView (order : Order) (size : Size) (r : Record) : List Byte :=
  order.arrange (leBytes size.bytes (clampedValue size r % (2 : Int) ^ (8 * size.bytes)).toNat)

/-- The number of bytes a counter read is answered with. -/
def View.bytes : View → Nat
  | .presented _ _ size => size.bytes
  | .clamped _ size => size.bytes
  | .drain _ => 8

/-- The bytes a counter read is answered with: presented bytes o to o+s−1 (R3), the clamped view (R22), or the whole
presented record as it stood (R19). -/
def View.answer (v : View) (r : Record) : List Byte :=
  match v with
  | .presented order offset size => ((presentedRecord order r).drop offset).take size.bytes
  | .clamped order size => clampedView order size r
  | .drain order => presentedRecord order r

end Sys2Proof.Machine
end

