-- ==== Sys2Proof/Machine/OperationUnit.lean ====
section
/-! DEFINITION. The Operation Unit: the arithmetic of the ten record operations, range handling and the watch
(R6 to R21, R23). -/

namespace Sys2Proof.Machine

/-- The greatest VALUE, 2^55−1 (R1). -/
def maxValue : Int := 2 ^ 55 - 1

/-- The least VALUE, −2^55 (R1). -/
def minValue : Int := -2 ^ 55

/-- An integer lies in the range of VALUE. -/
def valueInRange (x : Int) : Bool := decide (minValue ≤ x ∧ x ≤ maxValue)

/-- The nearer limit for an integer outside the range; the integer itself inside it (R7, R8). -/
def clampValue (x : Int) : Int := max minValue (min maxValue x)

/-- The one number in the range congruent to an integer modulo 2^56 (R7). -/
def wrapValue (x : Int) : Int := (x + 2 ^ 55) % 2 ^ 56 - 2 ^ 55

/-- Range handling of an exact result by POLICY (R7). -/
def rangeValue (policy : Policy) (exact : Int) : Int :=
  match policy with
  | .wrap => wrapValue exact
  | .clamp => clampValue exact

/-- The increment of WADD: the exact product over 2^SHIFT, rounded by ROUND (R12, R13). -/
def waddIncrement (p : Params) (operand : Int) : Int :=
  let product := operand * p.weight.toInt
  let n := p.shift.toNat
  match p.round with
  | .trunc => product / 2 ^ n
  | .halfUp => if n = 0 then product else (product + 2 ^ (n - 1)) / 2 ^ n
  | .halfEven =>
    let q := product / 2 ^ n
    let twice := 2 * (product % 2 ^ n)
    if twice < 2 ^ n then q
    else if 2 ^ n < twice then q + 1
    else if q % 2 = 0 then q else q + 1

/-- The new VALUE that replaces or keeps the old one, for a clamped operand (R14 to R17). REARM keeps VALUE. -/
def comparedValue (kind : OpKind) (operand old : Int) : Int :=
  match kind with
  | .peak => if operand > old then operand else old
  | .valley => if operand < old then operand else old
  | .peakMag => if operand.natAbs > old.natAbs then operand else old
  | .load | .preset => operand
  | .add | .tally | .wadd | .rearm => old

/-- The exact result of a summing operation before range handling (R10, R11, R12), for the three kinds that have
one. -/
def exactSum (op : PendingOp) (old : Int) : Option Int :=
  match op.kind with
  | .add => some (old + op.operand)
  | .tally => some (old + 1)
  | .wadd => some (old + waddIncrement op.params op.operand)
  | .peak | .valley | .peakMag | .load | .preset | .rearm => none

/-- A record with VALUE and OVF replaced. -/
def Record.withValue (r : Record) (value : Int) (ovf : Bool) : Record :=
  { r with value := BitVec.ofInt 56 value, ovf := ovf }

/-- The record after one of the seven accumulate operations, before the watch (R7 to R16). -/
def accumulated (op : PendingOp) (r : Record) : Record :=
  match exactSum op r.value.toInt with
  | some exact => r.withValue (rangeValue op.params.policy exact) (r.ovf || !valueInRange exact)
  | none =>
    r.withValue (comparedValue op.kind (clampValue op.operand) r.value.toInt) (r.ovf || !valueInRange op.operand)

/-- The watch fires (R20), judged on the old record and the new VALUE. -/
def watchFires (watch : BitVec 6) (old new : Record) : Bool :=
  decide (watch.toNat < 56) && old.arm && !old.hit && !old.value.getLsbD watch.toNat && new.value.getLsbD watch.toNat

/-- What the Operation Unit returns for a write-type operation (R23): the new record, and whether the watch
fired. -/
structure Evaluation where
  record : Record
  fired  : Bool
deriving DecidableEq, Repr

/-- An accumulate operation with its watch (R20, R21). -/
def evaluateAccumulate (op : PendingOp) (r : Record) : Evaluation :=
  let r' := accumulated op r
  let fired := watchFires op.params.watch r r'
  ⟨{ r' with hit := r'.hit || fired }, fired⟩

/-- PRESET (R17). -/
def evaluatePreset (op : PendingOp) (r : Record) : Record :=
  { r.withValue (clampValue op.operand) (!valueInRange op.operand) with hit := false }

/-- REARM (R18). -/
def evaluateRearm (op : PendingOp) (r : Record) : Record :=
  { r with hit := false, arm := decide (op.operand ≠ 0) }

/-- The evaluation of a write-type operation (R5, R23). -/
def evaluate (op : PendingOp) (r : Record) : Evaluation :=
  match op.kind with
  | .preset => ⟨evaluatePreset op r, false⟩
  | .rearm => ⟨evaluateRearm op r, false⟩
  | .add | .tally | .wadd | .peak | .valley | .peakMag | .load => evaluateAccumulate op r

/-- The record that a DRAIN read leaves (R19). -/
def drained (r : Record) : Record := { r with value := 0, ovf := false }

/-- The THRESHOLD record of a fired watch (R21). -/
def thresholdRecord (op : PendingOp) (backing : Addr) (before after : Record) : EventRecord where
  kind := .threshold
  cause := none
  master := op.origin.master
  access := op.origin.access.byte
  upstream := op.origin.addr
  backing := some backing
  detail := 0
  before := before
  after := after

/-- Applies a pending list in order (R6, R89): the record left, and the threshold records in list order. -/
def applyAll (backing : Addr) : List PendingOp → Record → Record × List EventRecord
  | [], r => (r, [])
  | op :: ops, r =>
    let e := evaluate op r
    let rest := applyAll backing ops e.record
    (rest.1, (if e.fired then [thresholdRecord op backing r e.record] else []) ++ rest.2)

end Sys2Proof.Machine
end

