-- ==== Sys2Proof/Machine/Flags.lean ====
section
/-! DEFINITION. Every flag, summary and line level that is computed from the state: STATUS and FLAGS (11.6, R172),
ANY_ERROR (R161), ATTN (R142), the accept line (R113), MLRTS (R167), MLTX (R166), LINE_ERRORS (R172). The flags of a
counter record are computed in the Operation Unit. -/

namespace Sys2Proof.Machine

/-- FAULT_LATCHED (R162). -/
def FaultLatch.latched (l : FaultLatch) : Bool := l.record.isSome

/-- ANY_ERROR: any of the eight flags other than FAULT_LATCHED (R161). -/
def StickyFlags.anyError (f : StickyFlags) : Bool :=
  f.overrun || f.ringBroken || f.indexError || f.dataLost || f.dropped || f.configError || f.mirrorFault || f.fatal

/-- What CLEAR_STATUS leaves of the flags: RING_BROKEN and FATAL are not cleared (R159). -/
def StickyFlags.statusCleared (f : StickyFlags) : StickyFlags :=
  { StickyFlags.clear with ringBroken := f.ringBroken, fatal := f.fatal }

/-- One bit of a word. -/
def bitAt (b : Bool) (i : Nat) : Nat := if b then 2 ^ i else 0

/-- The flag positions of STATUS and of the FLAGS register (11.6). -/
def flagsWord (f : StickyFlags) (l : FaultLatch) : Nat :=
  bitAt f.overrun 0 + bitAt f.ringBroken 1 + bitAt f.indexError 2 + bitAt f.dataLost 3 + bitAt f.dropped 4
  + bitAt f.configError 5 + bitAt f.mirrorFault 6 + bitAt f.fatal 7 + bitAt l.latched 8 + bitAt l.more 9
  + bitAt f.anyError 15

/-- The STATUS word (11.6). -/
def statusWord (f : StickyFlags) (l : FaultLatch) : List Byte := leBytes 8 (flagsWord f l)

/-- The MODE_STATUS word (11.6). -/
def modeStatusWord (m : Mode) (c : FatalCause) : List Byte := leBytes 8 (m.code + 256 * c.code)

/-- The LAST_FAULT area (11.6): the latched record, all zeros while none is latched. -/
def lastFaultBytes (l : FaultLatch) : List Byte :=
  match l.record with
  | some e => e.bytes
  | none => List.replicate 32 0

/-- The LINE_ERRORS register (R172). -/
def LineErrors.word (e : LineErrors) : Nat :=
  bitAt e.framing 0 + bitAt e.parity 1 + bitAt e.overrunLine 2 + bitAt e.timeoutDiscard 3 + bitAt e.badCheckSeen 4

/-- The ring's fill (R132). -/
def RingWriter.fill (r : RingWriter) : Nat := (r.produced - r.consumed).toNat

/-- The ring is full (R132). -/
def RingWriter.isFull (r : RingWriter) : Bool := r.fill == 2 ^ r.size

/-- The level of ATTN (R142); it is deasserted while RSTn is asserted. -/
def State.attn (s : State) : Bool :=
  !s.pins.rstnAsserted && ((s.ring.attnEnable && s.ring.produced != s.ring.consumed) || s.cm.flags.anyError)

/-- The level of the accept line (R113): low while either list is full, while the soft restart empties the port, and
while RSTn is asserted. -/
def State.acceptHigh (s : State) : Bool :=
  !s.pins.rstnAsserted && !s.up.restarting && decide (s.up.intake.length < Config.portDepth)
    && decide (s.up.reads.length < Config.portDepth)

/-- MLRTS is asserted while the buffer holds 5 bytes or fewer, and RSTn is not asserted (R167, R177). -/
def State.mlrtsAsserted (s : State) : Bool := !s.pins.rstnAsserted && decide (s.link.buffer.length ≤ 5)

/-- The byte on MLTX, if one has been begun (R171); otherwise the line rests at the stop level. -/
def State.mltxByte (s : State) : Option Byte :=
  match s.link.parser with
  | .responding (b :: _) true _ => if s.pins.rstnAsserted then none else some b
  | _ => none

/-! ### Characters on the link's lines -/

/-- The nine data and parity bits hold an odd number of ones (R166). -/
def oddParity (data : Byte) (parity : Bool) : Bool :=
  (List.range 8).foldl (fun acc i => acc != data.getLsbD i) parity

/-- One bit time of a character: the start bit, a data or parity bit with its value, or the stop bit (R166). -/
inductive LineBit
  | start
  | bit (value : Bool)
  | stop
deriving DecidableEq, Repr

/-- The frame of a character (R166): a start bit, the 8 data bits with the least significant first, the parity bit that
makes the number of ones even, and a stop bit. -/
def characterFrame (data : Byte) : List LineBit :=
  [.start] ++ (List.range 8).map (fun i => .bit (data.getLsbD i)) ++ [.bit (oddParity data false), .stop]

/-- The bits that MLTX carries, in the order sent, until the present character's stop bit has been sent; none while the
line rests at the stop level (R166, R171, R177). -/
def State.mltxFrame (s : State) : List LineBit :=
  match s.mltxByte with
  | some b => characterFrame b
  | none => []

end Sys2Proof.Machine
end

