-- ==== Sys2Proof/Machine/Ops.lean ====
section
/-! DEFINITION. The named operations over the state that the meanings share: block updates, the mode, the sticky
flags, the fault latch, the mirror and its ACK list, the record queue, answers to reads, holds on the Request Path,
and the lines of the Accumulator Cache. -/

namespace Sys2Proof.Machine

/-! ### Block updates -/

def State.withUp (b : UpstreamPort) (s : State) : State := { s with up := b }
def State.withPath (b : Option Held) (s : State) : State := { s with path := b }
def State.withWalker (b : Walker) (s : State) : State := { s with walker := b }
def State.withWindows (b : List WindowEntry) (s : State) : State := { s with windows := b }
def State.withAcc (b : AccCache) (s : State) : State := { s with acc := b }
def State.withDown (b : DownPort) (s : State) : State := { s with down := b }
def State.withRing (b : RingWriter) (s : State) : State := { s with ring := b }
def State.withCm (b : ControlMonitor) (s : State) : State := { s with cm := b }
def State.withLink (b : Link) (s : State) : State := { s with link := b }
def State.withPins (b : Pins) (s : State) : State := { s with pins := b }
def State.withTick (n : Nat) (s : State) : State := { s with freeTick := n }
def State.withPending (q : List Instr) (s : State) : State := { s with pending := q }

/-! ### The mode, the flags, the latch and the mirror -/

/-- A change of the mode or the fatal cause; MODE_STATUS becomes pending when either changes (R147, R163). -/
def State.setMode (m : Mode) (c : FatalCause) (s : State) : State :=
  s.withCm { s.cm with
    mode := m
    fatalCause := c
    mirror := { s.cm.mirror with
      modePending := s.cm.mirror.modePending || decide (m ≠ s.cm.mode) || decide (c ≠ s.cm.fatalCause) } }

/-- New values of the sticky flags; STATUS becomes pending when they change (R161, R163). -/
def State.setFlags (f : StickyFlags) (s : State) : State :=
  s.withCm { s.cm with
    flags := f
    mirror := { s.cm.mirror with statusPending := s.cm.mirror.statusPending || decide (f ≠ s.cm.flags) } }

def State.raiseOverrun (s : State) : State := s.setFlags { s.cm.flags with overrun := true }
def State.raiseRingBroken (s : State) : State := s.setFlags { s.cm.flags with ringBroken := true }
def State.raiseIndexError (s : State) : State := s.setFlags { s.cm.flags with indexError := true }
def State.raiseDataLost (s : State) : State := s.setFlags { s.cm.flags with dataLost := true }
def State.raiseDropped (s : State) : State := s.setFlags { s.cm.flags with dropped := true }
def State.raiseConfigError (s : State) : State := s.setFlags { s.cm.flags with configError := true }
def State.raiseMirrorFault (s : State) : State := s.setFlags { s.cm.flags with mirrorFault := true }
def State.setFatal (b : Bool) (s : State) : State := s.setFlags { s.cm.flags with fatal := b }

/-- A new value of the fault latch. STATUS becomes pending when FAULT_LATCHED or FAULT_MORE changes, LAST_FAULT when
the latched record does (R162, R163; log 12). -/
def State.setLatch (l : FaultLatch) (s : State) : State :=
  s.withCm { s.cm with
    latch := l
    mirror := { s.cm.mirror with
      statusPending := s.cm.mirror.statusPending || decide (l.latched ≠ s.cm.latch.latched)
        || decide (l.more ≠ s.cm.latch.more)
      faultPending := s.cm.mirror.faultPending || decide (l.record ≠ s.cm.latch.record) } }

/-- A fault reported to the latch (R162): the first is latched, a later one sets FAULT_MORE. -/
def State.reportFault (e : EventRecord) (s : State) : State :=
  match s.cm.latch.record with
  | none => s.setLatch { s.cm.latch with record := some e }
  | some _ => s.setLatch { s.cm.latch with more := true }

/-- An ACK offered to the ACK list; a full list sets MIRROR_FAULT instead (R163, R164; log 13). -/
def State.pushAck (a : Ack) (s : State) : State :=
  if s.cm.mirror.acks.length < Config.ackDepth then
    s.withCm { s.cm with mirror := { s.cm.mirror with acks := s.cm.mirror.acks ++ [a] } }
  else s.raiseMirrorFault

/-- An ACK is formed (R152): it is the last ACK formed, and is handed to the ACK list. -/
def State.formAck (a : Ack) (s : State) : State :=
  (s.withCm { s.cm with mirror := { s.cm.mirror with lastAck := some a } }).pushAck a

/-- The detail of an ACK: the validation code for CONFIG_ERROR, else 0 (R152). -/
def ackDetail (code : Option ConfigCode) : Byte := BitVec.ofNat 8 ((code.map ConfigCode.number).getD 0)

/-- The request in progress ends: a block request forms its ACK, a forced bypass forms none (R152, R160). -/
def State.endRequest (outcome : AckOutcome) (code : Option ConfigCode) (s : State) : State :=
  match s.cm.inProgress with
  | some (.block command tag) =>
    (s.withCm { s.cm with inProgress := none }).formAck ⟨command.code, tag, some outcome, ackDetail code⟩
  | some .link => s.withCm { s.cm with inProgress := none }
  | none => s

/-! ### Event records -/

/-- A record handed to the Event Ring Writer (R130): dropped while the ring is INACTIVE, queued while there is room,
and otherwise dropped with OVERRUN. -/
def State.handRecord (e : EventRecord) (s : State) : State :=
  match s.ring.state with
  | .inactive => s
  | .active | .broken =>
    if s.ring.queue.length < Config.recordDepth then s.withRing { s.ring with queue := s.ring.queue ++ [e] }
    else s.raiseOverrun

/-- Records handed over one after another. -/
def State.handRecords (es : List EventRecord) (s : State) : State := es.foldl (fun t e => t.handRecord e) s

/-! ### Requests and their answers -/

/-- The access description of a request. -/
def Request.access (r : Request) : Access := ⟨r.kind, r.priv, r.shape⟩

/-- The origin of a request, as event records carry it. -/
def Request.origin (r : Request) : Origin := ⟨r.master, r.access, r.addr⟩

/-- The bytes a request covers (R64). -/
def Request.bytes (r : Request) : Nat := r.shape.bytes

/-- The request is a WRITE. -/
def Request.isWrite (r : Request) : Bool := r.kind == .write

/-- An entry of the order list takes an answer if the answer is its own (R114). -/
def ReadEntry.answered (id : Nat) (a : Answer) (e : ReadEntry) : ReadEntry :=
  if e.id = id then { e with answer := some a } else e

/-- The entry of a read is made ready (R115). -/
def State.answerRead (id : Nat) (a : Answer) (s : State) : State :=
  s.withUp { s.up with reads := s.up.reads.map (ReadEntry.answered id a) }

/-- The answer with data of a read that succeeds (R115). -/
def okayAnswer (data : List Byte) : Answer := ⟨.okay, data⟩

/-- The FAULT answer of `n` bytes, all ones (R115). -/
def faultAnswer (n : Nat) : Answer := ⟨.fault, allOnes n⟩

/-- The answer to a request; a write gets none (R112). -/
def State.answerRequest (r : Request) (a : Answer) (s : State) : State :=
  match r.readId with
  | some id => s.answerRead id a
  | none => s

/-! ### The Request Path and its holds -/

/-- A hold takes effect (R117); one that loads the configuration has its read offered (R153, R158). -/
def State.holdInForce (h : Hold) (s : State) : State :=
  s.withCm { s.cm with
    hold := some h
    placed := none
    configRead := match h with
      | .activateLoad | .ringLoad => .offered
      | .drainStart => s.cm.configRead }

/-- A placed hold takes effect when no other hold is in force and the path holds no request (R117, R149). -/
def State.settleHold (s : State) : State :=
  match s.cm.placed, s.cm.hold, s.path with
  | some h, none, none => s.holdInForce h
  | _, _, _ => s

/-- The Control Monitor places a hold (R117). -/
def State.placeHold (h : Hold) (s : State) : State := (s.withCm { s.cm with placed := some h }).settleHold

/-- The Control Monitor releases the hold in force; one that waited for it takes its place (R149). -/
def State.releaseHold (s : State) : State := (s.withCm { s.cm with hold := none }).settleHold

/-- The Request Path has finished its request (R116); a hold waiting for that takes effect (R117). -/
def State.finishPath (s : State) : State := (s.withPath none).settleHold

/-- The Request Path goes on holding a request at a stage of its course. -/
def State.keep (r : Request) (stage : Stage) (s : State) : State := s.withPath (some ⟨r, stage⟩)

/-- A refusal without a record (R65, R80, R81, R104): a read is answered FAULT, and a write is dropped with
DROPPED. -/
def State.refuse (r : Request) (s : State) : State :=
  (if r.isWrite then s.raiseDropped else s.answerRequest r (faultAnswer r.bytes)).finishPath

/-- The FAULT record of a fault with a cause (R47, R77). -/
def faultRecord (r : Request) (f : FaultInfo) : EventRecord where
  kind := .fault
  cause := some f.cause
  master := r.master
  access := r.access.byte
  upstream := r.addr
  backing := f.backing
  detail := BitVec.ofNat 32 f.detail
  before := .zero
  after := .zero

/-- A fault with a cause (R76, R77): the answer or drop, the FAULT record and the report to the latch. -/
def State.faultWith (r : Request) (f : FaultInfo) (s : State) : State :=
  (((s.answerRequest r (faultAnswer r.bytes)).handRecord (faultRecord r f)).reportFault (faultRecord r f)).finishPath

/-! ### Lines of the Accumulator Cache -/

/-- A line of the cache. -/
def AccCache.line (c : AccCache) (i : Fin 64) : Line := c.lines[i]

/-- The cache with one line replaced. -/
def AccCache.setLine (i : Fin 64) (l : Line) (c : AccCache) : AccCache := { c with lines := c.lines.set i l }

/-- The cache with every line changed by a function of its number and itself. -/
def AccCache.mapLines (f : Fin 64 → Line → Line) (c : AccCache) : AccCache :=
  { c with lines := Vector.ofFn fun i => f i (c.line i) }

/-- A line becomes most recently used (R83). -/
def AccCache.touch (i : Fin 64) (c : AccCache) : AccCache := { c with order := c.order.filter (· ≠ i) ++ [i] }

/-- A line of the machine. -/
def State.line (s : State) (i : Fin 64) : Line := s.acc.line i

/-- The machine with one line replaced. -/
def State.setLine (i : Fin 64) (l : Line) (s : State) : State := s.withAcc (s.acc.setLine i l)

/-- A line becomes most recently used (R83). -/
def State.touch (i : Fin 64) (s : State) : State := s.withAcc (s.acc.touch i)

/-- A line becomes FREE and leaves the use order (R82, R83). -/
def State.freeLine (i : Fin 64) (s : State) : State :=
  s.withAcc { s.acc.setLine i Line.empty with order := s.acc.order.filter (· ≠ i) }

/-- The line for the counter at a backing address (R82). -/
def State.lineFor (s : State) (backing : Addr) : Option (Fin 64) :=
  (List.finRange 64).find? fun i => (s.line i).state ≠ .free ∧ (s.line i).backing = backing

/-- The age timer as it stands when a line becomes DIRTY (R96): started, or off with AGE_INTERVAL 0 and in HALTED. -/
def State.startedAge (s : State) : Option Nat :=
  if s.acc.ageInterval = 0 ∨ s.cm.mode = .halted then none else some s.acc.ageInterval

/-- A line whose write-back starts (R91). -/
def Line.startWrite (evict : Bool) (l : Line) : Line :=
  { l with state := .writing, writeCopy := l.record, covers := l.flushMark, evict := evict, redirty := false,
           age := none }

/-- A write-back of a line is started and queued at the write-back engine (R91). -/
def State.startWriteBack (evict : Bool) (i : Fin 64) (s : State) : State :=
  s.withAcc { s.acc.setLine i ((s.line i).startWrite evict) with writeQueue := s.acc.writeQueue ++ [i] }

/-- Puts a line into a list sorted by a key. -/
def insertBy (key : Fin 64 → Nat) (i : Fin 64) : List (Fin 64) → List (Fin 64)
  | [] => [i]
  | j :: js => if key i ≤ key j then i :: j :: js else j :: insertBy key i js

/-- A list of lines in rising order of a key. -/
def sortBy (key : Fin 64 → Nat) : List (Fin 64) → List (Fin 64)
  | [] => []
  | i :: is => insertBy key i (sortBy key is)

/-- The lines in one state. -/
def State.linesIn (s : State) (st : LineState) : List (Fin 64) :=
  (List.finRange 64).filter fun i => (s.line i).state = st

/-- Every DIRTY line starts a write-back at one moment (R105, R108). Their order at the engine is free (log 9). -/
def State.startAllDirty (evict : Bool) (s : State) : State :=
  (s.withAcc { s.acc.mapLines (fun _ l => if l.state = .dirty then l.startWrite evict else l) with
    writeQueue := s.acc.writeQueue ++ sortBy (fun i => Config.startRank s.freeTick i.val) (s.linesIn .dirty) }
  ).withTick (s.freeTick + 1)

/-- All 64 lines are FREE. -/
def AccCache.allFree (c : AccCache) : Bool := (List.finRange 64).all fun i => (c.line i).state = .free

/-- Some line carries a FLUSH_MARK. -/
def AccCache.anyMarked (c : AccCache) : Bool := (List.finRange 64).any fun i => (c.line i).flushMark

/-- A line that is not FREE overlaps a byte range (R101). -/
def Line.overlapped (l : Line) (addr : Addr) (n : Nat) : Bool :=
  decide (l.state ≠ .free) && overlaps addr.toNat n l.backing.toNat 8

/-- The lines a forwarded access overlaps, in ascending order of BACKING (R101). -/
def State.overlappedLines (s : State) (addr : Addr) (n : Nat) : List (Fin 64) :=
  sortBy (fun i => (s.line i).backing.toNat) ((List.finRange 64).filter fun i => (s.line i).overlapped addr n)

end Sys2Proof.Machine
end

