-- ==== Sys2Proof/Machine/Windows.lean ====
section
/-! DEFINITION. The governed span, the decomposition of a span address, rights, groups, the shape test and the
judgements (R24 to R39, R67), and the Window Cache (R49 to R62). -/

namespace Sys2Proof.Machine

/-! ### The span and the parts of a span address -/

/-- The length of the span, 256 KiB × 2^k (R24). -/
def LoadedConfig.spanLength (c : LoadedConfig) : Nat := 2 ^ 18 * 2 ^ c.spanSize

/-- Some byte of a range lies inside the span (R25). -/
def LoadedConfig.meetsSpan (c : LoadedConfig) (addr : Addr) (n : Nat) : Bool :=
  overlaps addr.toNat n c.spanBase.toNat c.spanLength

/-- Every byte of a range lies inside the span (R25). -/
def LoadedConfig.insideSpan (c : LoadedConfig) (addr : Addr) (n : Nat) : Bool :=
  inside addr.toNat n c.spanBase.toNat c.spanLength

/-- The offset of an address in the span (R26). -/
def LoadedConfig.offset (c : LoadedConfig) (addr : Addr) : Nat := addr.toNat - c.spanBase.toNat

/-- The span-relative window number of an address (R26). -/
def LoadedConfig.windowOf (c : LoadedConfig) (addr : Addr) : Nat := c.offset addr / 2048

/-- The window number of the first byte of a range inside the span (R25, R65, R66). -/
def LoadedConfig.firstWindow (c : LoadedConfig) (addr : Addr) : Nat :=
  (max addr.toNat c.spanBase.toNat - c.spanBase.toNat) / 2048

/-- The directory-entry address (R26). -/
def LoadedConfig.dirAddr (c : LoadedConfig) (addr : Addr) : Addr :=
  c.dirBase + BitVec.ofNat 32 (8 * (c.offset addr / 2 ^ 18))

/-- The descriptor address (R26), from TABLE_BASE and the window number. -/
def descAddrOf (tableBase : Addr) (window : Nat) : Addr := tableBase + BitVec.ofNat 32 (16 * (window % 128))

/-- The offset of an address within its 2 KiB window (R26). -/
def LoadedConfig.windowOffset (c : LoadedConfig) (addr : Addr) : Nat := c.offset addr % 2048

/-- The backing address (R26). -/
def Descriptor.backingAddr (d : Descriptor) (windowOffset : Nat) : Addr := d.backing + BitVec.ofNat 32 windowOffset

/-- The slot's backing address, BACKING_BASE + 8 × slot (R26). -/
def Descriptor.slotAddr (d : Descriptor) (windowOffset : Nat) : Addr :=
  d.backing + BitVec.ofNat 32 (8 * (windowOffset / 8))

/-! ### Alignment and form of a request -/

/-- A request is aligned (R64). -/
def alignedShape (addr : Addr) (shape : Shape) : Bool :=
  match shape with
  | .single size => alignedTo addr.toNat size.bytes
  | .burst _ => alignedTo addr.toNat 8

/-- A burst with a length field of 1 is ill-formed (R65, R112). -/
def illFormedBurst (shape : Shape) : Bool := shape == .burst 1

/-- The request is refused before any other sorting: misaligned or ill-formed (R64, R65). -/
def Request.misshapen (r : Request) : Bool := !alignedShape r.addr r.shape || illFormedBurst r.shape

/-! ### Rights and groups -/

/-- The order NONE < READ < FULL (R31). -/
def Rights.rank : Rights → Nat
  | .noAccess => 0
  | .readOnly => 1
  | .full => 2

/-- The more restrictive of two rights (R31). -/
def Rights.meet (a b : Rights) : Rights := if a.rank ≤ b.rank then a else b

/-- The supervisor rights of a window (R32). -/
def supervisorRights (strict : Bool) (user : Rights) : Rights :=
  if strict then
    match user with
    | .noAccess | .readOnly => .readOnly
    | .full => .full
  else .full

/-- The rights an access is judged against (R33). -/
def rightsFor (priv : Priv) (dirRights : Rights) (d : Descriptor) : Rights :=
  match priv with
  | .usr => dirRights.meet d.userRights
  | .sup => supervisorRights d.strict (dirRights.meet d.userRights)

/-- The access needs FULL: a write of any window, or a read of a DRAIN window (R33). It is also what needs CHANGED
(R41). -/
def needsFull (kind : AccessKind) (window : WindowKind) : Bool := kind == .write || window == .drain

/-- The rights an access needs (R33). -/
def neededRights (kind : AccessKind) (window : WindowKind) : Rights :=
  if needsFull kind window then .full else .readOnly

/-- The group of a master: bits 2m and 2m+1 of GROUP_MAP (R34). -/
def groupOf (groupMap : BitVec 32) (m : Fin 16) : Nat := (groupMap.extractLsb' (2 * m.val) 2).toNat

/-! ### The shape test -/

/-- A window's KIND admits an access (R67, step 2). -/
def shapeAdmitted (window : WindowKind) (kind : AccessKind) (shape : Shape) (slotOffset : Nat) : Bool :=
  match window, shape, kind with
  | .direct, _, _ => true
  | _, .burst _, _ => false
  | .accumulate, .single _, .read => true
  | .accumulate, .single _, .write => slotOffset == 0
  | .clampedView, .single _, _ => slotOffset == 0
  | .drain, .single size, .read => size == .b8
  | .drain, .single _, .write => slotOffset == 0

/-- The shape test (R67): a burst past the edge of its window is BOUNDARY, an access the KIND refuses SHAPE. -/
def shapeFault (window : WindowKind) (kind : AccessKind) (shape : Shape) (windowOffset : Nat) : Option Cause :=
  if shapeIsBurst shape && decide (2048 < windowOffset + shape.bytes) then some .boundary
  else if shapeAdmitted window kind shape (windowOffset % 8) then none
  else some .shape

/-! ### The judgements -/

/-- Tests 5 to 7 of R39 against a descriptor. `second` says that this is the judgement under the lock, whose RIGHTS
fault comes after relocation (R47). The result is the fault of the first test failed. -/
def judge (c : LoadedConfig) (second : Bool) (dirRights : Rights) (d : Descriptor) (r : Request) : Option FaultInfo :=
  let window := c.windowOf r.addr
  let backing := d.backingAddr (c.windowOffset r.addr)
  if (rightsFor r.priv dirRights d).rank < (neededRights r.kind d.kind).rank then
    some ⟨.rights, window, if second then some backing else none⟩
  else if !d.groups.getLsbD (groupOf c.groupMap r.master) then some ⟨.group, window, none⟩
  else
    match shapeFault d.kind r.kind r.shape (c.windowOffset r.addr) with
    | some cause => some ⟨cause, window, some backing⟩
    | none => none

/-- A directory entry is malformed (R28): the fourth code of USER_RIGHTS, or a table that overlaps the span. -/
def dirRightsOf (c : LoadedConfig) (f : DirFields) : Option Rights :=
  if overlaps f.tableBase.toNat 2048 c.spanBase.toNat c.spanLength then none else f.userRights

/-- Tests 3 and 4 of R39 on a descriptor as read (R30): its decoded form, or the cause. -/
def descriptorOf (c : LoadedConfig) (w : BitVec 128) : Except Cause Descriptor :=
  if !descPresent w then .error .winAbsent
  else
    match Descriptor.decode w with
    | none => .error .malformed
    | some d =>
      if overlaps d.backing.toNat 2048 c.spanBase.toNat c.spanLength then .error .malformed else .ok d

/-! ### The Window Cache -/

/-- The entry for a window (R51). -/
def findWindow (window : Nat) (es : List WindowEntry) : Option WindowEntry := es.find? fun e => e.window = window

/-- The cache without the entry for a window (R50). -/
def removeWindow (window : Nat) (es : List WindowEntry) : List WindowEntry := es.filter fun e => e.window ≠ window

/-- An entry becomes most recently used, replacing one for the same window; a full cache first displaces its least
recently used entry (R50, R52, R53). -/
def insertWindow (e : WindowEntry) (es : List WindowEntry) : List WindowEntry :=
  let rest := removeWindow e.window es
  (if rest.length < Config.windowEntries then rest else rest.drop 1) ++ [e]

/-- Entries are inserted in ACTIVE and DRAINING alone (R52, R54). -/
def Mode.insertsWindows (m : Mode) : Bool := m == .active || m == .draining

/-- A walk or a locked update hands over an entry (R52, R54). -/
def State.insertEntry (e : WindowEntry) (s : State) : State :=
  if s.cm.mode.insertsWindows then s.withWindows (insertWindow e s.windows) else s

/-- An entry is updated in place if the cache holds one for the window (R55). -/
def State.updateEntry (e : WindowEntry) (s : State) : State :=
  if (findWindow e.window s.windows).isSome then s.withWindows (insertWindow e s.windows) else s

/-- The window's entry is removed (R55, R56). -/
def State.dropEntry (window : Nat) (s : State) : State := s.withWindows (removeWindow window s.windows)

/-- An entry's table bytes overlap an observed write (R58). -/
def WindowEntry.touchedBy (addr : Addr) (n : Nat) (e : WindowEntry) : Bool :=
  overlaps addr.toNat n e.dirAddr.toNat 8 || overlaps addr.toNat n e.descAddr.toNat 16

/-- An observed write removes the entries whose table bytes it overlaps (R58). -/
def State.invalidate (addr : Addr) (n : Nat) (s : State) : State :=
  s.withWindows (s.windows.filter fun e => !e.touchedBy addr n)

end Sys2Proof.Machine
end

