-- ==== Sys2Proof/Machine/Cache.lean ====
section
/-! DEFINITION. The Accumulator Cache: allocation, operations and reads on lines, settling, flush marks and the drain
of lines (R84 to R108), up to what the completions of fills and write-backs do (Completions.lean). -/

namespace Sys2Proof.Machine

/-! ### Allocation -/

/-- What allocation finds (R84): a line it takes, a DIRTY victim to evict, or nothing it may take. -/
inductive Allocation
  | take (line : Fin 64)
  | evict (line : Fin 64)
  | wait
deriving DecidableEq, Repr

/-- The steps of allocation in their order (R84). -/
def State.allocation (s : State) : Allocation :=
  match (List.finRange 64).find? fun i => (s.line i).state = .free with
  | some i => .take i
  | none =>
    match s.acc.order.find? fun i => (s.line i).state = .clean ∨ (s.line i).state = .dirty with
    | some i => if (s.line i).state = .clean then .take i else .evict i
    | none => .wait

/-- A line taken by allocation: FILLING, with what caused it as its first pending entry if that is an operation, and
its fill requested (R84). -/
def State.setUpLine (i : Fin 64) (backing : Addr) (pending : List PendingOp) (cause : Origin) (s : State) : State :=
  let c := (s.acc.setLine i
    { Line.empty with state := .filling, backing := backing, pending := pending, cause := cause }).touch i
  s.withAcc { c with fillQueue := c.fillQueue ++ [i] }

/-- The allocation for an operation (`pending` its one entry) or a DRAIN read (`pending` empty): the line is set up
and the rest goes on with `taken`, or the path waits at `waiting` (R84, R85). -/
def State.allocate (backing : Addr) (pending : List PendingOp) (r : Request) (waiting : Stage)
    (taken : Fin 64 → State → State) (s : State) : State :=
  match s.allocation with
  | .take i => taken i (s.setUpLine i backing pending r.origin)
  | .evict i => (s.startWriteBack true i).keep r waiting
  | .wait => s.keep r waiting

/-! ### Operations and reads on a line -/

/-- A line whose record an operation or a drain has replaced at once (R86, R100): a CLEAN line becomes DIRTY with its
timer started, a DIRTY line stays so, a WRITING line gains REDIRTY. -/
def Line.replaceRecord (r : Record) (age : Option Nat) (l : Line) : Line :=
  match l.state with
  | .clean => { l with record := r, state := .dirty, age := age }
  | .writing => { l with record := r, redirty := true }
  | .free | .filling | .dirty => { l with record := r }

/-- An operation applied at once to a line (R86): the record, the use order and the threshold report. -/
def State.applyOp (op : PendingOp) (i : Fin 64) (s : State) : State :=
  let l := s.line i
  let e := evaluate op l.record
  ((s.setLine i (l.replaceRecord e.record s.startedAge)).touch i).handRecords
    (if e.fired then [thresholdRecord op l.backing l.record e.record] else [])

/-- The operation is handed to the cache (R86, R87), or the path goes on holding it. -/
def State.handOperation (r : Request) (op : PendingOp) (backing : Addr) (s : State) : State :=
  match s.lineFor backing with
  | none => s.allocate backing [op] r (.operation op backing) (fun _ t => t.finishPath)
  | some i =>
    let l := s.line i
    if l.state = .filling then
      if l.pending.length < Config.pendingDepth then
        (s.setLine i { l with pending := l.pending ++ [op] }).finishPath
      else s.keep r (.operation op backing)
    else (s.applyOp op i).finishPath

/-- An ACCUMULATE or CLAMPED_VIEW read handed to the cache (R98, R99). -/
def State.serveRead (r : Request) (view : View) (backing : Addr) (s : State) : State :=
  match s.lineFor backing with
  | none => s.keep r (.counterRead backing view)
  | some i =>
    let l := s.line i
    if l.state = .filling then s.keep r (.onLine i view)
    else ((s.touch i).answerRequest r (okayAnswer (view.answer l.record))).finishPath

/-- A DRAIN read handed to the cache (R100). -/
def State.serveDrain (r : Request) (order : Order) (backing : Addr) (s : State) : State :=
  match s.lineFor backing with
  | none => s.allocate backing [] r (.drainRead backing order) (fun i t => t.keep r (.onLine i (.drain order)))
  | some i =>
    let l := s.line i
    if l.state = .filling then s.keep r (.onLine i (.drain order))
    else
      (((s.setLine i (l.replaceRecord (drained l.record) s.startedAge)).touch i).answerRequest r
        (okayAnswer (presentedRecord order l.record))).finishPath

/-! ### Settling -/

/-- The settling action on one overlapped line (R102, R103). -/
def State.settleLine (write : Bool) (s : State) (i : Fin 64) : State :=
  let l := s.line i
  match l.state, write with
  | .clean, true => s.freeLine i
  | .dirty, w => s.startWriteBack w i
  | .writing, true => s.setLine i { l with evict := true }
  | _, _ => s

/-- The overlapped lines are settled together, in ascending order of BACKING (R101). -/
def State.settle (write : Bool) (addr : Addr) (n : Nat) (s : State) : State :=
  (s.overlappedLines addr n).foldl (State.settleLine write) s

/-- Every overlapped line is settled for a forwarded access: CLEAN for a read; for a write none is left (R101). -/
def State.isSettled (s : State) (write : Bool) (addr : Addr) (n : Nat) : Bool :=
  (List.finRange 64).all fun i =>
    !(s.line i).overlapped addr n || (!write && decide ((s.line i).state = .clean))

/-- Some line that is not FREE overlaps a byte range (R104). -/
def State.meetsLine (s : State) (addr : Addr) (n : Nat) : Bool :=
  (List.finRange 64).any fun i => (s.line i).overlapped addr n

/-! ### Flush and drain -/

/-- The marking of a line at the acceptance of a FLUSH (R105). -/
def Line.markForFlush (l : Line) : Line :=
  match l.state with
  | .dirty | .writing => { l with flushMark := true }
  | .filling => { l with flushMark := !l.pending.isEmpty }
  | .free | .clean => l

/-- A FLUSH handed to the cache (R105): the lines are marked, and the DIRTY ones start their write-backs, which
cover. -/
def State.flushLines (s : State) : State :=
  (s.withAcc (s.acc.mapLines fun _ l => l.markForFlush)).startAllDirty false

/-- When no mark is left, the flush in progress is reported complete and acknowledged (R107, R157). -/
def State.flushCheck (s : State) : State :=
  match s.cm.inProgress with
  | some (.block .flush _) => if s.acc.anyMarked then s else s.endRequest .done none
  | _ => s

/-- When all lines are FREE in the drain, the cache reports itself drained and the ring release begins (R108,
R149). -/
def State.drainedCheck (s : State) : State :=
  if s.cm.leaving = .draining ∧ s.acc.allFree = true then s.withCm { s.cm with leaving := .releasing } else s

/-- A line that has become CLEAN or DIRTY during the drain (R108, steps 2, 3, 5 and 6). -/
def State.drainLine (i : Fin 64) (s : State) : State :=
  if s.cm.leaving = .draining then
    match (s.line i).state with
    | .clean => s.freeLine i
    | .dirty => s.startWriteBack true i
    | .free | .filling | .writing => s
  else s

/-- What the cache does with its lines when DRAINING begins, before the DIRTY ones start (R108, steps 1, 2 and 4). -/
def Line.beginDrain (l : Line) : Line :=
  match l.state with
  | .clean => .empty
  | .writing => { l with flushMark := false, evict := true }
  | .free | .filling | .dirty => { l with flushMark := false }

/-- The cache's part of DRAINING begins (R108). -/
def State.drainLines (s : State) : State :=
  let c := s.acc.mapLines fun _ l => l.beginDrain
  (s.withAcc { c with order := c.order.filter fun i => (c.line i).state ≠ .free }).startAllDirty true

end Sys2Proof.Machine
end

