-- ==== Sys2Proof/Machine/Words.lean ====
section
/-! DEFINITION. The recognised REQUEST and CONSUMED words (R137, R145, R151 to R159): what the Control Monitor does when
it takes one, and how the words of a presented write are taken before anything that could tell the difference. -/

namespace Sys2Proof.Machine

/-! ### The fate of a request -/

/-- A command is taken in a mode (R151, step 3). -/
def Command.takenIn (c : Command) (m : Mode) : Bool :=
  match c, m with
  | .activate, .bypass => true
  | .activate, .active | .activate, .draining | .activate, .halted => false
  | .deactivate, .bypass | .deactivate, .active | .deactivate, .halted => true
  | .deactivate, .draining => false
  | .purge, .active | .flush, .active | .ringRestart, .active => true
  | .purge, .bypass | .purge, .draining | .purge, .halted => false
  | .flush, .bypass | .flush, .draining | .flush, .halted => false
  | .ringRestart, .bypass | .ringRestart, .draining | .ringRestart, .halted => false
  | .clearStatus, .bypass | .clearStatus, .active | .clearStatus, .draining | .clearStatus, .halted => true

/-- A refusal forms its ACK at once, with the code as written and detail 0 (R151). -/
def State.refuseRequest (code tag : Byte) (outcome : AckOutcome) (s : State) : State :=
  s.formAck ⟨code, tag, some outcome, 0⟩

/-! ### The way to BYPASS -/

/-- DEACTIVATE, or a forced bypass acting as it, in the mode now in force (R149, R150, R155, R160). In BYPASS the
request ends at once. -/
def State.beginLeaving (s : State) : State :=
  match s.cm.mode with
  | .active =>
    let s := s.setMode .draining .noCause
    (s.withCm { s.cm with leaving := .starting }).placeHold .drainStart
  | .halted => s.withCm { s.cm with leaving := .discarding }
  | .bypass => s.endRequest .done none
  | .draining => s

/-- The status that CLEAR_STATUS and CLEAR_FLAGS clear (R159, R175): six flags and the fault latch. -/
def State.clearStatus (s : State) : State := (s.setFlags s.cm.flags.statusCleared).setLatch ⟨none, false⟩

/-! ### What a word does -/

/-- What a request that is taken does (R153, steps 1 and 2; R155; R61, R156; R105, R157; R158, steps 1 and 2; R159). With
no line marked a FLUSH is complete at once. -/
def Command.carryOut (c : Command) (s : State) : State :=
  match c with
  | .activate => s.placeHold .activateLoad
  | .deactivate => s.beginLeaving
  | .purge => (s.withWindows []).endRequest .done none
  | .flush => s.flushLines.flushCheck
  | .ringRestart => s.placeHold .ringLoad
  | .clearStatus => s.clearStatus.endRequest .done none

/-- The fate of a REQUEST of a known command (R151, steps 2 to 4): refused as busy or for its mode, or taken, when it
becomes the request in progress and is carried out. -/
def State.onRequest (c : Command) (tag : Byte) (s : State) : State :=
  if s.cm.inProgress.isSome then s.refuseRequest c.code tag .refusedBusy
  else if !c.takenIn s.cm.mode then s.refuseRequest c.code tag .refusedMode
  else c.carryOut (s.withCm { s.cm with inProgress := some (.block c tag) })

/-- The command that a code names (11.6). -/
def Command.ofCode (code : Byte) : Option Command :=
  match code.toNat with
  | 1 => some .activate
  | 2 => some .deactivate
  | 3 => some .purge
  | 4 => some .flush
  | 5 => some .ringRestart
  | 6 => some .clearStatus
  | _ => none

/-- The range of a CONSUMED value (R137). -/
def RingWriter.consumedInRange (r : RingWriter) (c : BitVec 16) : Bool :=
  decide ((c - r.consumed).toNat ≤ (r.produced - r.consumed).toNat)

/-- The consumer index handed to the Event Ring Writer (R137). -/
def State.consume (c : BitVec 16) (s : State) : State :=
  if s.ring.consumedInRange c then s.withRing { s.ring with consumed := c }
  else
    match s.ring.state with
    | .inactive => s
    | .active | .broken => s.raiseIndexError

/-- A recognised word is taken: the code NONE has no effect and an unknown code is refused (R145, R151). -/
def State.takeWord (w : ControlWord) (s : State) : State :=
  match w with
  | .consumed index => s.consume index
  | .request code tag =>
    if code = 0 then s
    else
      match Command.ofCode code with
      | some c => s.onRequest c tag
      | none => s.refuseRequest code tag .refusedCommand

/-! ### When a word is taken -/

/-- The words given, taken in their order; `rest` is what waits behind each (R145). -/
def State.takeWords : List ControlWord → State → State
  | [], s => s
  | w :: rest, s => ((s.withCm { s.cm with recognised := rest }).takeWord w).takeWords rest

/-- The words given are taken up to and with `w`; where `w` is not among them it is a word presented now, after them. -/
def State.takeThrough (w : ControlWord) : List ControlWord → State → State
  | [], s => s.takeWord w
  | h :: rest, s =>
    let t := (s.withCm { s.cm with recognised := rest }).takeWord h
    if h = w then t else t.takeThrough w rest

/-- A word's own row (R145, log 3). -/
def State.onWord (w : ControlWord) (s : State) : State :=
  if s.pins.rstnAsserted then s else s.takeThrough w s.cm.recognised

/-- Another command's step: a word is taken when its write is presented, so those that wait are taken first (R121, R145,
log 3). -/
def State.afterWords (act : State → State) (s : State) : State :=
  act (if s.pins.rstnAsserted then s else s.takeWords s.cm.recognised)

end Sys2Proof.Machine
end

