-- ==== Sys2Proof/Machine/Path.lean ====
section
/-! DEFINITION. The course of a request through the Request Path: forwarding, execution by the window's kind, the
outcome of a judgement, and the way on when a line changes (R39, R41, R64 to R81, R85, R87, R101, R116). -/

namespace Sys2Proof.Machine

/-- A forwarded access begins its course: it is refused in HALTED if it overlaps a line that is not FREE, and settles
otherwise (R101, R104, R119). -/
def State.startForward (r : Request) (addr : Addr) (direct : Bool) (s : State) : State :=
  if s.cm.mode = .halted ∧ s.meetsLine addr r.bytes = true then s.refuse r
  else (s.keep r (.forward addr direct)).settle r.isWrite addr r.bytes

/-- The write-type operation that a write forms (R5, R70, R73, R75): its kind, the operand of R4, and the parameters
copied from the descriptor. -/
def formOperation (kind : OpKind) (d : Descriptor) (r : Request) : PendingOp where
  kind := kind
  operand := operandOf d.order d.params.signed r.data
  params := d.params
  origin := r.origin

/-- The size of a single access; windows that present counters take no bursts (R67). -/
def shapeSize : Shape → Size
  | .single size => size
  | .burst _ => .b8

/-- The bridge has left ACTIVE by way of HALTED while it carried the request (R81; log 17). -/
def Mode.refusesCarried (m : Mode) : Bool := m == .halted || m == .bypass

/-- A request that has passed all its tests is executed by its window's kind (R68 to R75). One not yet handed to the
cache when the mode has become HALTED is refused, and so is a DIRECT access over a line (R81). -/
def State.execute (r : Request) (d : Descriptor) (s : State) : State :=
  let offset := s.cm.config.windowOffset r.addr
  let slot := d.slotAddr offset
  match d.kind, r.kind with
  | .direct, _ => s.startForward r (d.backingAddr offset) true
  | .accumulate, .read =>
    if s.cm.mode.refusesCarried then s.refuse r
    else s.serveRead r (.presented d.order (offset % 8) (shapeSize r.shape)) slot
  | .accumulate, .write =>
    if s.cm.mode.refusesCarried then s.refuse r
    else s.handOperation r (formOperation ((accumulateOp d.params.op).getD .add) d r) slot
  | .clampedView, .read =>
    if s.cm.mode.refusesCarried then s.refuse r else s.serveRead r (.clamped d.order (shapeSize r.shape)) slot
  | .clampedView, .write =>
    if s.cm.mode.refusesCarried then s.refuse r else s.handOperation r (formOperation .preset d r) slot
  | .drain, .read => if s.cm.mode.refusesCarried then s.refuse r else s.serveDrain r d.order slot
  | .drain, .write =>
    if s.cm.mode.refusesCarried then s.refuse r else s.handOperation r (formOperation .rearm d r) slot

/-- The walker enters LOCKED and offers the LOCKED_READ of the descriptor (R42). -/
def State.beginLockedUpdate (r : Request) (e : WindowEntry) (s : State) : State :=
  (s.withWalker { Walker.idle with
    phase := .locked
    window := e.window
    dirAddr := e.dirAddr
    descAddr := e.descAddr
    dirRights := e.dirRights
    priorBacking := e.desc.backingAddr (s.cm.config.windowOffset r.addr)
    needChanged := needsFull r.kind e.desc.kind }).keep r .walking

/-- The request needs an indicator that its entry does not hold as known (R41). -/
def WindowEntry.needsUpdate (kind : AccessKind) (e : WindowEntry) : Bool :=
  !e.touchedKnown || (needsFull kind e.desc.kind && !e.changedKnown)

/-- The request is judged on an entry, from the cache or from a walk (R39): it faults, begins a locked update (R41),
or is executed. A locked update not begun when the bridge is HALTED is not begun (R81). -/
def State.judged (r : Request) (e : WindowEntry) (s : State) : State :=
  match judge s.cm.config false e.dirRights e.desc r with
  | some f => s.faultWith r f
  | none =>
    if e.needsUpdate r.kind then
      if s.cm.mode.refusesCarried then s.refuse r else s.beginLockedUpdate r e
    else s.execute r e.desc

/-- The walker begins a walk (R36). -/
def State.beginWalk (r : Request) (s : State) : State :=
  (s.withWalker { Walker.idle with
    phase := .dirRead
    window := s.cm.config.windowOf r.addr
    dirAddr := s.cm.config.dirAddr r.addr }).keep r .walking

/-- The lookup (R51): a hit makes the entry most recently used and judges the request on its copy; a miss begins a
walk. -/
def State.lookUp (r : Request) (s : State) : State :=
  match findWindow (s.cm.config.windowOf r.addr) s.windows with
  | some e => (s.withWindows (insertWindow e s.windows)).judged r e
  | none => s.beginWalk r

/-- The fault of a misshapen request in ACTIVE (R65, R77). -/
def misshapenFault (c : LoadedConfig) (r : Request) : FaultInfo :=
  ⟨.shape, if c.meetsSpan r.addr r.bytes then c.firstWindow r.addr else 0, none⟩

/-- The fault of a burst crossing the span edge (R66, R77). -/
def boundaryFault (c : LoadedConfig) (r : Request) : FaultInfo := ⟨.boundary, c.firstWindow r.addr, none⟩

/-- The request is an aligned span request (R25, R64). The span does not exist in BYPASS (R78). -/
def State.isSpanRequest (s : State) (r : Request) : Bool :=
  decide (s.cm.mode ≠ .bypass) && !r.misshapen && s.cm.config.meetsSpan r.addr r.bytes

/-- The sorting of a request taken from the queue (R64), in the mode in force. A span request met in DRAINING is not
taken and does not come here (R79). -/
def State.sort (r : Request) (s : State) : State :=
  if r.misshapen then
    if s.cm.mode = .active then s.faultWith r (misshapenFault s.cm.config r) else s.refuse r
  else if !s.isSpanRequest r then s.startForward r r.addr false
  else if s.cm.mode = .active then
    if s.cm.config.insideSpan r.addr r.bytes then s.lookUp r else s.faultWith r (boundaryFault s.cm.config r)
  else s.refuse r

/-- The request held is tried again when a fill or a write-back has completed or a line has changed its state (R85,
R87, R101). -/
def State.resumePath (s : State) : State :=
  match s.path with
  | some ⟨r, .forward addr _⟩ => s.settle r.isWrite addr r.bytes
  | some ⟨r, .operation op backing⟩ => s.handOperation r op backing
  | some ⟨r, .drainRead backing order⟩ => s.serveDrain r order backing
  | some ⟨_, .walking⟩ | some ⟨_, .counterRead _ _⟩ | some ⟨_, .onLine _ _⟩ | none => s

/-- What follows when a line has become CLEAN, DIRTY or FREE: the drain treats it, the request held is tried again,
and the flush and the drain may be complete (R85, R101, R106, R108). -/
def State.afterLine (i : Fin 64) (s : State) : State :=
  (s.drainLine i).resumePath.flushCheck.drainedCheck

end Sys2Proof.Machine
end

