-- ==== Sys2Proof/Machine/Halted.lean ====
section
/-! DEFINITION. Entering HALTED: the freeze of the Accumulator Cache, what becomes of the request held and of the
request in progress (R81, R95, R104, R109, R147, R148). -/

namespace Sys2Proof.Machine

/-- A line at the freeze (R109): its mark is cleared and its timer stops; a write-back not yet issued is withdrawn. -/
def Line.freeze (withdrawn : Bool) (l : Line) : Line :=
  if withdrawn && decide (l.state = .writing) then
    { l with state := .dirty, flushMark := false, age := none, evict := false, redirty := false,
             writeCopy := .zero, covers := false }
  else { l with flushMark := false, age := none }

/-- The Accumulator Cache freezes (R109): unissued fills and write-backs are withdrawn. -/
def State.freezeCache (s : State) : State :=
  s.withAcc { s.acc.mapLines (fun i l => l.freeze (decide (i ∈ s.acc.writeQueue))) with
    fillQueue := []
    writeQueue := [] }

/-- What the change to HALTED does to the request held (R81, R104, R109): one not yet handed to the cache and a
forwarded access over a line are refused, and a read on a line whose fill is withdrawn is answered FAULT. A walk, a
locked update, a counter read already given to memory and a read whose fill is in flight go on. -/
def State.haltPath (s : State) : State :=
  match s.path with
  | some ⟨r, .operation _ _⟩ => s.refuse r
  | some ⟨r, .drainRead _ _⟩ => s.refuse r
  | some ⟨r, .forward addr _⟩ => if s.meetsLine addr r.bytes then s.refuse r else s
  | some ⟨r, .onLine i _⟩ =>
    if i ∈ s.acc.fillQueue then (s.answerRequest r (faultAnswer r.bytes)).finishPath else s
  | some ⟨_, .walking⟩ | some ⟨_, .counterRead _ _⟩ | none => s

/-- The hold DRAIN_START is released if it is in force, and withdrawn if it has not yet taken effect (R148). -/
def State.dropDrainStart (s : State) : State :=
  s.withCm { s.cm with
    hold := if s.cm.hold = some .drainStart then none else s.cm.hold
    placed := if s.cm.placed = some .drainStart then none else s.cm.placed }

/-- The request in progress at the change to HALTED (R148): FLUSH and DEACTIVATE fail, a forced bypass ends without an
ACK, ACTIVATE and RING_RESTART go on. -/
def State.haltRequest (s : State) : State :=
  match s.cm.inProgress with
  | some (.block .flush _) => s.endRequest .failed none
  | some (.block .deactivate _) => s.endRequest .failed none
  | some .link => s.endRequest .failed none
  | some (.block .activate _) | some (.block .ringRestart _) | some (.block .purge _)
  | some (.block .clearStatus _) | none => s

/-- The mode becomes HALTED (R148). -/
def State.enterHalted (s : State) : State :=
  let s := (((s.setMode .halted .writebackError).setFatal true).withWindows []).dropDrainStart
  let s := s.withCm { s.cm with leaving := .stay }
  s.haltPath.freezeCache.haltRequest

end Sys2Proof.Machine
end

