-- ==== Sys2Proof/Machine/Completions.lean ====
section
/-! DEFINITION. What the completion of a downstream request does at its requester (R125): forwarded traffic, the
walk and the locked update, fills and write-backs, the configuration read, the ring's writes and the mirror's. -/

namespace Sys2Proof.Machine

/-! ### Forwarded traffic -/

/-- A forwarded read completes (R115, R119). -/
def State.completeForwardedRead (id n : Nat) (st : Status) (data : Payload) (s : State) : State :=
  match st with
  | .okay => s.answerRead id (okayAnswer (laneBytes n data))
  | .error => s.answerRead id (faultAnswer n)

/-- A counter read with no line completes (R99). -/
def State.completeCounterRead (id : Nat) (view : View) (st : Status) (data : Payload) (s : State) : State :=
  match st with
  | .okay => s.answerRead id (okayAnswer (view.answer (Record.ofLanes data)))
  | .error => s.answerRead id (faultAnswer view.bytes)

/-- The WRITE_ERROR record (R120). -/
def writeErrorRecord (o : Origin) (backing : Option Addr) : EventRecord where
  kind := .writeError
  cause := none
  master := o.master
  access := o.access.byte
  upstream := o.addr
  backing := backing
  detail := 0
  before := .zero
  after := .zero

/-- A forwarded write completes (R120). -/
def State.completeForwardedWrite (o : Origin) (backing : Option Addr) (st : Status) (s : State) : State :=
  match st with
  | .okay => s
  | .error => s.handRecord (writeErrorRecord o backing)

/-! ### The walk and the locked update -/

/-- The walk or locked update ends with a fault (R37, R38, R40, R44 to R46). -/
def State.walkFault (r : Request) (f : FaultInfo) (s : State) : State := (s.withWalker .idle).faultWith r f

/-- The directory READ completes (R37, R40). -/
def State.completeDirRead (r : Request) (st : Status) (data : Payload) (s : State) : State :=
  let w := s.walker
  match st with
  | .error => s.walkFault r ⟨.tableError, w.window, none⟩
  | .okay =>
    let raw : BitVec 64 := data.setWidth 64
    let f := DirFields.decode raw
    if !f.present then s.walkFault r ⟨.dirAbsent, w.window, none⟩
    else
      match dirRightsOf s.cm.config f with
      | none => s.walkFault r ⟨.malformed, w.window, none⟩
      | some rights =>
        s.withWalker { w with
          phase := .descRead
          issued := false
          dirEntry := raw
          dirRights := rights
          descAddr := descAddrOf f.tableBase w.window }

/-- The descriptor READ completes (R38, R40): on success the entry is handed to the cache and the request is judged
on it. -/
def State.completeDescRead (r : Request) (st : Status) (data : Payload) (s : State) : State :=
  let w := s.walker
  match st with
  | .error => s.walkFault r ⟨.tableError, w.window, none⟩
  | .okay =>
    let raw : BitVec 128 := data.setWidth 128
    match descriptorOf s.cm.config raw with
    | .error cause => s.walkFault r ⟨cause, w.window, none⟩
    | .ok d =>
      let e : WindowEntry := ⟨w.window, w.dirAddr, w.descAddr, w.dirRights, d, descTouched raw, descChanged raw⟩
      ((s.withWalker .idle).insertEntry e).judged r e

/-- The second judgement: tests 3 to 7 of R39 on the descriptor read under the lock (R43). -/
def secondJudgement (c : LoadedConfig) (w : Walker) (r : Request) (raw : BitVec 128) : Option FaultInfo :=
  match descriptorOf c raw with
  | .error cause => some ⟨cause, w.window, none⟩
  | .ok d => judge c true w.dirRights d r

/-- The LOCKED_READ completes (R43 to R45): the walker offers the UNLOCKING_WRITE, or the RELEASE after an error. -/
def State.completeLockedRead (r : Request) (st : Status) (data : Payload) (s : State) : State :=
  let w := s.walker
  match st with
  | .error => s.withWalker { w with phase := .releasing, issued := false }
  | .okay =>
    let raw : BitVec 128 := data.setWidth 128
    s.withWalker { w with
      phase := .unlocking
      issued := false
      descRead := raw
      verdict := secondJudgement s.cm.config w r raw }

/-- The entry that a locked update leaves for its window (R54, R55): the addresses and directory rights are kept. -/
def Walker.entry (w : Walker) (d : Descriptor) (touched changed : Bool) : WindowEntry :=
  ⟨w.window, w.dirAddr, w.descAddr, w.dirRights, d, touched, changed⟩

/-- The update of the cache when the second judgement has failed (R55). -/
def State.updateAfterFailure (w : Walker) (s : State) : State :=
  match descriptorOf s.cm.config w.descRead with
  | .error _ => s.dropEntry w.window
  | .ok d => s.updateEntry (w.entry d (descTouched w.descRead) (descChanged w.descRead))

/-- The lock ends (R126). -/
def State.unlock (s : State) : State := s.withDown { s.down with lock := none }

/-- The locked update has failed (R45, R46, R56): the entry is removed and the request faults with TABLE_ERROR. -/
def State.updateFailed (r : Request) (s : State) : State :=
  ((s.unlock).dropEntry s.walker.window).walkFault r
    ⟨.tableError, s.walker.window, some s.walker.priorBacking⟩

/-- The UNLOCKING_WRITE completes (R44, R46): the lock ends, the cache is updated, and the request is executed under
the descriptor read under the lock, or refused. -/
def State.completeUnlockingWrite (r : Request) (st : Status) (s : State) : State :=
  let w := s.walker
  match st with
  | .error => s.updateFailed r
  | .okay =>
    match w.verdict with
    | some f => ((s.unlock).updateAfterFailure w).walkFault r f
    | none =>
      match descriptorOf s.cm.config w.descRead with
      | .error cause => (s.unlock).walkFault r ⟨cause, w.window, none⟩
      | .ok d =>
        (((s.unlock).withWalker .idle).insertEntry (w.entry d true (w.needChanged || descChanged w.descRead))).execute
          r d

/-! ### Fills and write-backs -/

/-- The read that waits on a line, if there is one (R89). -/
def State.waiterOn (s : State) (i : Fin 64) : Option (Request × View) :=
  match s.path with
  | some ⟨r, .onLine j view⟩ => if j = i then some (r, view) else none
  | _ => none

/-- What the waiting read leaves of the record: a DRAIN read drains it (R89, R100). -/
def View.leaves (v : View) (r : Record) : Record :=
  match v with
  | .drain _ => drained r
  | .presented _ _ _ | .clamped _ _ => r

/-- The waiting read is answered and its request is finished (R89, R90). -/
def State.answerWaiter (waiter : Option (Request × View)) (a : View → Answer) (s : State) : State :=
  match waiter with
  | some (r, view) => (s.answerRequest r (a view)).finishPath
  | none => s

/-- A filled line (R89, step 4): DIRTY with its timer started if its record is not the one fetched, else CLEAN. Only the
record it is left with is compared: where pending operations change it and the waiting DRAIN read changes it back, the
line is CLEAN (the model's choice, log 29). The mark of a line that becomes CLEAN is cleared (R106). -/
def Line.filled (fetched left : Record) (age : Option Nat) (l : Line) : Line :=
  if left = fetched then
    { l with state := .clean, record := left, pending := [], age := none, flushMark := false }
  else { l with state := .dirty, record := left, pending := [], age := age }

/-- A marked line that has become DIRTY starts a write-back at once (R106). -/
def State.flushDirty (i : Fin 64) (s : State) : State :=
  if (s.line i).state = .dirty ∧ (s.line i).flushMark = true then s.startWriteBack false i else s

/-- A fill completes OKAY (R89). The line's own steps come first, the write-back of a marked line that has become DIRTY
among them (R106); what waits for the line follows, so a ninth operation that waited on its full list (R87) finds it
WRITING (the model's choice, log 14). -/
def State.fillOkay (i : Fin 64) (data : Payload) (s : State) : State :=
  let l := s.line i
  let fetched := Record.ofLanes data
  let applied := applyAll l.backing l.pending fetched
  let waiter := s.waiterOn i
  let left := match waiter with
    | some (_, view) => view.leaves applied.1
    | none => applied.1
  let s := s.setLine i (l.filled fetched left s.startedAge)
  let s := if l.pending.isEmpty && waiter.isNone then s else s.touch i
  let s := (s.handRecords applied.2).answerWaiter waiter fun view => okayAnswer (view.answer applied.1)
  (s.flushDirty i).afterLine i

/-- The FILL_LOST record (R90). -/
def fillLostRecord (l : Line) : EventRecord where
  kind := .fillLost
  cause := none
  master := l.cause.master
  access := l.cause.access.byte
  upstream := l.cause.addr
  backing := some l.backing
  detail := BitVec.ofNat 32 l.pending.length
  before := .zero
  after := .zero

/-- A fill completes ERROR (R90). -/
def State.fillError (i : Fin 64) (s : State) : State :=
  let waiter := s.waiterOn i
  let s := (s.freeLine i).handRecord (fillLostRecord (s.line i))
  (s.answerWaiter waiter fun view => faultAnswer view.bytes).afterLine i

/-- A line whose write-back has ended, DIRTY or CLEAN, with EVICT, REDIRTY and WRITE_COPY cleared (R93, R94). -/
def Line.written (state : LineState) (age : Option Nat) (mark : Bool) (l : Line) : Line :=
  { l with state := state, age := age, flushMark := mark, evict := false, redirty := false, writeCopy := .zero,
           covers := false }

/-- A line whose write-back has ended with REDIRTY set: DIRTY, and most recently used if the write-back was an
eviction (R85, R93; log 28). -/
def State.redirtied (i : Fin 64) (s : State) : State :=
  let l := s.line i
  let s := s.setLine i (l.written .dirty s.startedAge (l.flushMark && !l.covers))
  if l.evict then s.touch i else s

/-- A write-back completes OKAY (R93). A mark stays only on a line written with COVERS clear and REDIRTY set, which is
written again at once (R106). -/
def State.writeBackOkay (i : Fin 64) (s : State) : State :=
  let l := s.line i
  let s :=
    if l.redirty then (s.redirtied i).flushDirty i
    else if l.evict then s.freeLine i
    else s.setLine i (l.written .clean none false)
  s.afterLine i

/-- The HALT record (R94). -/
def haltRecord (l : Line) : EventRecord where
  kind := .halt
  cause := none
  master := 0
  access := 0
  upstream := 0
  backing := some l.backing
  detail := 0
  before := .zero
  after := l.record

/-- A write-back completes ERROR (R94, R95): the line is DIRTY again, its HALT record is handed over, and the mode
becomes HALTED unless the bridge is HALTED already. -/
def State.writeBackError (i : Fin 64) (s : State) : State :=
  let l := s.line i
  let s := (s.setLine i (l.written .dirty none l.flushMark)).handRecord (haltRecord l)
  match s.cm.mode with
  | .active | .draining => s.enterHalted
  | .halted | .bypass => s

/-- The fill of a FILLING line completes (R89, R90). A line has one fill, requested once, and leaves FILLING by it
(R88). -/
def State.completeFill (i : Fin 64) (st : Status) (data : Payload) (s : State) : State :=
  if (s.line i).state = .filling then
    match st with
    | .okay => s.fillOkay i data
    | .error => s.fillError i
  else s

/-- The write-back of a WRITING line completes (R93 to R95). -/
def State.completeWriteBack (i : Fin 64) (st : Status) (s : State) : State :=
  if (s.line i).state = .writing then
    match st with
    | .okay => s.writeBackOkay i
    | .error => s.writeBackError i
  else s

/-! ### The configuration read -/

/-- The checks on the span, the directory and the control block (R154, orders 2 to 6). -/
def checkSpan (cbBase : Addr) (a : ConfigArea) : Option ConfigCode :=
  if 9 < a.spanSize then some .spanSizeBad
  else
    let span := 2 ^ 18 * 2 ^ a.spanSize
    if !alignedTo a.spanBase.toNat span then some .spanAlign
    else if !alignedTo a.dirBase.toNat 4096 then some .dirAlign
    else if overlaps a.dirBase.toNat (8 * 2 ^ a.spanSize) a.spanBase.toNat span then some .dirOverlap
    else if overlaps cbBase.toNat 256 a.spanBase.toNat span then some .cbOverlap
    else none

/-- The checks on the ring (R154, orders 7 to 9), against a span and directory and the CB_BASE in force. -/
def checkRing (cbBase : Addr) (c : LoadedConfig) (ringBase : Addr) (ringSize : Nat) : Option ConfigCode :=
  if ringSize < 4 ∨ 12 < ringSize then some .ringSizeBad
  else
    let base := ringBase.toNat
    let length := 32 * 2 ^ ringSize
    if !alignedTo base 32 || decide (2 ^ 32 < base + length) then some .ringAlign
    else if overlaps base length c.spanBase.toNat c.spanLength
        || overlaps base length c.dirBase.toNat (8 * 2 ^ c.spanSize)
        || overlaps base length cbBase.toNat 256 then some .ringOverlap
    else none

/-- The configuration that ACTIVATE loads for the Request Path (R153). -/
def ConfigArea.loaded (a : ConfigArea) : LoadedConfig := ⟨a.spanBase, a.spanSize, a.dirBase, a.groupMap⟩

/-- Validation for ACTIVATE (R154): the first check that fails. -/
def validateActivate (cbBase : Addr) (st : Status) (a : ConfigArea) : Option ConfigCode :=
  match st with
  | .error => some .configReadError
  | .okay =>
    match checkSpan cbBase a with
    | some code => some code
    | none =>
      match checkRing cbBase a.loaded a.ringBase a.ringSize with
      | some code => some code
      | none => if 1023 < a.ageInterval then some .ageBad else none

/-- Validation for RING_RESTART: checks 1, 7, 8 and 9 (R154, R158). -/
def validateRestart (cbBase : Addr) (c : LoadedConfig) (st : Status) (a : ConfigArea) : Option ConfigCode :=
  match st with
  | .error => some .configReadError
  | .okay => checkRing cbBase c a.ringBase a.ringSize

/-- Validation has failed: CONFIG_CODE, CONFIG_ERROR and the ACK (R153, R158). -/
def State.configFailed (code : ConfigCode) (s : State) : State :=
  ((s.withCm { s.cm with configCode := some code }).raiseConfigError).endRequest .configError (some code)

/-- The ring is started (R138): it leaves INACTIVE, so the mirror's PRODUCED is no longer pending (R163). -/
def State.startRing (a : ConfigArea) (s : State) : State :=
  let s := s.withRing { s.ring with
    state := .active
    base := a.ringBase
    size := a.ringSize
    attnEnable := a.attnEnable
    produced := 0
    consumed := 0
    phase := .index
    issued := false
    inHand := none
    zeroWrite := some .activate }
  let s := s.withCm { s.cm with mirror := { s.cm.mirror with producedPending := false } }
  s.setFlags { s.cm.flags with ringBroken := false }

/-- ACTIVATE succeeds (R153, step 5). -/
def State.activateLoaded (a : ConfigArea) (s : State) : State :=
  let s := s.withCm { s.cm with configCode := none, config := a.loaded }
  let s := s.withAcc { s.acc with ageInterval := a.ageInterval }
  ((s.startRing a).setMode .active .noCause).releaseHold

/-- RING_RESTART succeeds (R158, step 5): the restart becomes pending (R139). -/
def State.restartLoaded (a : ConfigArea) (s : State) : State :=
  let s := s.withCm { s.cm with configCode := none }
  s.withRing { s.ring with restart := some (a.ringBase, a.ringSize) }

/-- The configuration read completes (R153, R154, R158). That of an abandoned request only ends its hold (R160). The
mode becomes ACTIVE from BYPASS alone (R147), where an ACTIVATE that is not abandoned stands. -/
def State.completeConfigRead (st : Status) (data : Payload) (s : State) : State :=
  let a := ConfigArea.decode data
  let t := s.withCm { s.cm with configRead := .idle }
  match s.cm.configRead, s.cm.hold with
  | .inFlight false, some .activateLoad =>
    match validateActivate s.cm.cbBase st a with
    | some code => (t.releaseHold).configFailed code
    | none => if s.cm.mode = .bypass then t.activateLoaded a else t.releaseHold
  | .inFlight false, some .ringLoad =>
    match validateRestart s.cm.cbBase s.cm.config st a with
    | some code => (t.releaseHold).configFailed code
    | none => (t.releaseHold).restartLoaded a
  | _, _ => t.releaseHold

/-! ### The ring's writes and the mirror's -/

/-- The ring breaks (R136). -/
def State.breakRing (s : State) : State :=
  (s.withRing { s.ring with state := .broken, inHand := none, phase := .idle, issued := false }).raiseRingBroken

/-- The PRODUCED write of 0 has completed, with either status: ACTIVATE, or RING_RESTART, ends with DONE if it is still
the request in progress (R139, R153, R158, R160). -/
def State.zeroWriteDone (z : Option ZeroWrite) (s : State) : State :=
  let t := s.withRing { s.ring with zeroWrite := none }
  match z, s.cm.inProgress with
  | some .activate, some (.block .activate _) => t.endRequest .done none
  | some .restart, some (.block .ringRestart _) => t.endRequest .done none
  | _, _ => t

/-- The writer's phase has a write in flight (R131, R134, R135). -/
def RingWriter.inFlight (phase : RingPhase) (r : RingWriter) : Bool := decide (r.phase = phase) && r.issued

/-- The record write completes (R134, R136). -/
def State.completeRecordWrite (st : Status) (s : State) : State :=
  if s.ring.inFlight .record then
    match st with
    | .okay => s.withRing { s.ring with phase := .index, issued := false }
    | .error => s.breakRing
  else s

/-- The index that the PRODUCED write in hand carries: PRODUCED + 1 for a record, and 0 for the write that starts a
ring (R135, R138). -/
def RingWriter.nextIndex (r : RingWriter) : BitVec 16 :=
  match r.inHand with
  | some _ => r.produced + 1
  | none => 0

/-- The PRODUCED write completes (R135, R136, R138). -/
def State.completeProducedWrite (st : Status) (s : State) : State :=
  if s.ring.inFlight .index then
    let t := match st with
      | .okay =>
        s.withRing { s.ring with produced := s.ring.nextIndex, inHand := none, phase := .idle, issued := false }
      | .error => s.breakRing
    t.zeroWriteDone s.ring.zeroWrite
  else s

/-- A mirror write completes (R164). -/
def State.completeMirrorWrite (st : Status) (s : State) : State :=
  let t := s.withCm { s.cm with mirror := { s.cm.mirror with inFlight := false } }
  match st with
  | .okay => t
  | .error => t.raiseMirrorFault

/-! ### Every completion -/

/-- A completion for the request whose walk or locked update is being made. -/
def State.forWalk (f : Request → State → State) (s : State) : State :=
  match s.path with
  | some ⟨r, .walking⟩ => f r s
  | some ⟨_, .forward _ _⟩ | some ⟨_, .counterRead _ _⟩ | some ⟨_, .operation _ _⟩ | some ⟨_, .drainRead _ _⟩
  | some ⟨_, .onLine _ _⟩ | none => s

/-- A completion delivered to its requester (R125). -/
def State.complete (p : Purpose) (st : Status) (data : Payload) (s : State) : State :=
  match p with
  | .forwardedRead id n => s.completeForwardedRead id n st data
  | .forwardedWrite o backing => s.completeForwardedWrite o backing st
  | .counterRead id view => s.completeCounterRead id view st data
  | .dirRead => s.forWalk fun r t => t.completeDirRead r st data
  | .descRead => s.forWalk fun r t => t.completeDescRead r st data
  | .lockedRead => s.forWalk fun r t => t.completeLockedRead r st data
  | .unlockingWrite => s.forWalk fun r t => t.completeUnlockingWrite r st
  | .release => s.forWalk fun r t => t.updateFailed r
  | .fill i => s.completeFill i st data
  | .writeBack i => s.completeWriteBack i st
  | .configRead => s.completeConfigRead st data
  | .ringRecord => s.completeRecordWrite st
  | .ringProduced => s.completeProducedWrite st
  | .mirror => s.completeMirrorWrite st

end Sys2Proof.Machine
end

