-- ==== Sys2Proof/Machine/Ports.lean ====
section
/-! DEFINITION. The Downstream Port: what each requester offers, the arbiter, issue and observation (R57, R121 to
R123, R126, R128), and the delivery of completions in issue order (R123, R124). -/

namespace Sys2Proof.Machine

/-! ### Slots -/

/-- A slot. -/
def DownPort.slot (d : DownPort) (i : Fin 8) : Slot := d.slots[i]

/-- The port with one slot replaced. -/
def DownPort.setSlot (i : Fin 8) (x : Slot) (d : DownPort) : DownPort := { d with slots := d.slots.set i x }

/-- The port with every slot changed. -/
def DownPort.mapSlots (f : Slot → Slot) (d : DownPort) : DownPort :=
  { d with slots := Vector.ofFn fun i => f (d.slot i) }

/-- A slot changes its state and keeps what it owes. -/
def State.setSlotState (i : Fin 8) (x : SlotState) (s : State) : State :=
  s.withDown (s.down.setSlot i { s.down.slot i with state := x })

/-- The lowest-numbered FREE slot (R123). -/
def DownPort.freeSlot (d : DownPort) : Option (Fin 8) :=
  (List.finRange 8).find? fun i => (d.slot i).state = .free

/-- A request of the cache is in flight in a slot (R95, R110). -/
def Slot.cacheTraffic (x : Slot) : Bool :=
  match x.state with
  | .waiting _ (.fill _) | .waiting _ (.writeBack _) | .held _ (.fill _) _ _ | .held _ (.writeBack _) _ _ => true
  | _ => false

/-- Some fill or write-back is in flight (R110). -/
def DownPort.cacheInFlight (d : DownPort) : Bool := (List.finRange 8).any fun i => (d.slot i).cacheTraffic

/-! ### What the requesters offer -/

/-- The downstream request of a forwarded access (R119) and what its completion needs (R119, R120). -/
def forwardRequest (r : Request) (addr : Addr) (direct : Bool) : MemRequest × Purpose :=
  match r.kind with
  | .read => (.read addr r.shape, .forwardedRead (r.readId.getD 0) r.bytes)
  | .write => (.write addr r.shape r.data, .forwardedWrite r.origin (if direct then some addr else none))

/-- The request that the walker's phase offers, unless it is issued already (R36, R37, R42, R44, R45). -/
def State.offerWalk (s : State) : Option (MemRequest × Purpose) :=
  let w := s.walker
  if w.issued then none
  else
    match w.phase with
    | .idle => none
    | .dirRead => some (.read w.dirAddr (.single .b8), .dirRead)
    | .descRead => some (.read w.descAddr (.burst 2), .descRead)
    | .locked => some (.lockedRead w.descAddr, .lockedRead)
    | .unlocking =>
      let bytes := if w.verdict.isSome then w.descRead else descMarked w.needChanged w.descRead
      some (.unlockingWrite w.descAddr (leBytes 16 bytes.toNat), .unlockingWrite)
    | .releasing => some (.release w.descAddr, .release)

/-- The one request that the Request Path's work needs next (R117, R128): that of the request it holds, or under a
loading hold the configuration read. -/
def State.offerPath (s : State) : Option (MemRequest × Purpose) :=
  match s.path with
  | none =>
    match s.cm.configRead with
    | .offered => some (.read s.cm.cbBase (.burst 8), .configRead)
    | .idle | .inFlight _ => none
  | some ⟨r, .forward addr direct⟩ =>
    if s.isSettled r.isWrite addr r.bytes then some (forwardRequest r addr direct) else none
  | some ⟨r, .counterRead backing view⟩ =>
    some (.read backing (.single .b8), .counterRead (r.readId.getD 0) view)
  | some ⟨_, .walking⟩ => s.offerWalk
  | some ⟨_, .operation _ _⟩ | some ⟨_, .drainRead _ _⟩ | some ⟨_, .onLine _ _⟩ => none

/-- The write that the Event Ring Writer's phase offers, unless it is issued already (R134, R135). -/
def State.offerRing (s : State) : Option (MemRequest × Purpose) :=
  let r := s.ring
  if r.issued then none
  else
    match r.phase, r.inHand with
    | .record, some e =>
      some (.write (r.base + BitVec.ofNat 32 (32 * (r.produced.toNat % 2 ^ r.size))) (.burst 4) e.bytes, .ringRecord)
    | .index, _ => some (.write (s.cm.cbBase + 0x98) (.single .b8) (producedWord r.nextIndex), .ringProduced)
    | .record, none | .idle, _ => none

/-- The words of the mirror (R163). -/
inductive MirrorWord
  | modeStatus | status | lastFault | produced
  | ack (a : Ack)
deriving DecidableEq, Repr

/-- The word the mirror writes next, in the order of R163; none while a mirror write is in flight. -/
def Mirror.next (m : Mirror) : Option MirrorWord :=
  if m.inFlight then none
  else if m.modePending then some .modeStatus
  else if m.statusPending then some .status
  else if m.faultPending then some .lastFault
  else if m.producedPending then some .produced
  else m.acks.head?.map .ack

/-- The mirror's write of a word with its value at issue (R144, R163). -/
def State.mirrorWrite (s : State) (w : MirrorWord) : MemRequest :=
  match w with
  | .modeStatus => .write (s.cm.cbBase + 0x88) (.single .b8) (modeStatusWord s.cm.mode s.cm.fatalCause)
  | .status => .write (s.cm.cbBase + 0x90) (.single .b8) (statusWord s.cm.flags s.cm.latch)
  | .lastFault => .write (s.cm.cbBase + 0xA0) (.burst 4) (lastFaultBytes s.cm.latch)
  | .produced => .write (s.cm.cbBase + 0x98) (.single .b8) (producedWord s.ring.produced)
  | .ack a => .write (s.cm.cbBase + 0x80) (.single .b8) a.bytes

/-- The mirror when a word is issued: its pending indicator is cleared, or the head ACK leaves the list (R163). -/
def Mirror.issue (w : MirrorWord) (m : Mirror) : Mirror :=
  match w with
  | .modeStatus => { m with modePending := false, inFlight := true }
  | .status => { m with statusPending := false, inFlight := true }
  | .lastFault => { m with faultPending := false, inFlight := true }
  | .produced => { m with producedPending := false, inFlight := true }
  | .ack _ => { m with acks := m.acks.tail, inFlight := true }

/-- What a requester offers (R128). -/
def State.offer (s : State) (who : Requester) : Option (MemRequest × Purpose) :=
  match who with
  | .writeBack =>
    s.acc.writeQueue.head?.map fun i =>
      (.write (s.line i).backing (.single .b8) (s.line i).writeCopy.bytes, .writeBack i)
  | .fill => s.acc.fillQueue.head?.map fun i => (.read (s.line i).backing (.single .b8), .fill i)
  | .path => s.offerPath
  | .ring => s.offerRing
  | .mirror => s.cm.mirror.next.map fun w => (s.mirrorWrite w, .mirror)

/-! ### The arbiter -/

/-- The fixed cycle, from the requester after a given one (R128). -/
def Requester.cycle : Requester → List Requester
  | .writeBack => [.fill, .path, .ring, .mirror, .writeBack]
  | .fill => [.path, .ring, .mirror, .writeBack, .fill]
  | .path => [.ring, .mirror, .writeBack, .fill, .path]
  | .ring => [.mirror, .writeBack, .fill, .path, .ring]
  | .mirror => [.writeBack, .fill, .path, .ring, .mirror]

/-- The requesters the arbiter may grant, in its order; while the lock is held the Request Path alone (R126, R128). -/
def DownPort.candidates (d : DownPort) : List Requester :=
  if d.lock.isSome then [.path] else d.lastGranted.cycle

/-- The requester the arbiter grants (R128). -/
def State.grantee (s : State) : Option Requester := s.down.candidates.find? fun who => (s.offer who).isSome

/-- A forwarded write is presented at its landing address to the Window Cache and to the Control Monitor (R57, R58,
R121, R145). -/
def State.observe (addr : Addr) (shape : Shape) (data : List Byte) (s : State) : State :=
  let s := s.invalidate addr shape.bytes
  s.withCm { s.cm with recognised := s.cm.recognised ++ controlWords s.cm.cbBase addr shape data }

/-- What the grant changes at the requester whose request is issued. -/
def State.requesterIssued (q : MemRequest) (p : Purpose) (s : State) : State :=
  match p with
  | .writeBack _ => s.withAcc { s.acc with writeQueue := s.acc.writeQueue.tail }
  | .fill _ => s.withAcc { s.acc with fillQueue := s.acc.fillQueue.tail }
  | .forwardedRead _ _ | .counterRead _ _ => s.finishPath
  | .forwardedWrite _ _ =>
    match q with
    | .write addr shape data => (s.observe addr shape data).finishPath
    | .read _ _ | .lockedRead _ | .unlockingWrite _ _ | .release _ => s.finishPath
  | .dirRead | .descRead | .unlockingWrite | .release => s.withWalker { s.walker with issued := true }
  | .lockedRead =>
    (s.withWalker { s.walker with issued := true }).withDown { s.down with lock := some s.walker.descAddr }
  | .configRead => s.withCm { s.cm with configRead := .inFlight false }
  | .ringRecord | .ringProduced => s.withRing { s.ring with issued := true }
  | .mirror =>
    match s.cm.mirror.next with
    | some w => s.withCm { s.cm with mirror := s.cm.mirror.issue w }
    | none => s

/-- A request is issued into a slot: the slot is WAITING as the youngest in issue order, and the arbiter's position
moves (R123, R128). -/
def State.issueInto (i : Fin 8) (who : Requester) (q : MemRequest) (p : Purpose) (s : State) : State :=
  let d := s.down.setSlot i { s.down.slot i with state := .waiting q p }
  (s.withDown { d with issueOrder := d.issueOrder ++ [i], lastGranted := who }).requesterIssued q p

/-- One grant of the arbiter (R128): none while no slot is FREE or no requester is ready. -/
def State.grant (s : State) : State :=
  match s.down.freeSlot, s.grantee with
  | some i, some who =>
    match s.offer who with
    | some (q, p) => s.issueInto i who q p
    | none => s
  | _, _ => s

/-! ### Delivery in issue order -/

/-- The oldest slot leaves the issue order in a given state, and its completion is delivered (R123, R124). -/
def State.completeOldest (i : Fin 8) (after : SlotState) (p : Purpose) (st : Status) (data : Payload) (s : State) :
    State :=
  let t := s.setSlotState i after
  (t.withDown { t.down with issueOrder := t.down.issueOrder.tail }).complete p st data

/-- While the oldest slot is HELD it completes with its own response (R123). At most eight slots can follow. -/
def State.deliverHeld : Nat → State → State
  | 0, s => s
  | n + 1, s =>
    match s.down.issueOrder with
    | [] => s
    | i :: _ =>
      match (s.down.slot i).state with
      | .held _ p st data => (s.completeOldest i .free p st data).deliverHeld n
      | .free | .waiting _ _ | .stale _ => s

/-- A slot is the oldest in issue order (R123). -/
def DownPort.isOldest (d : DownPort) (i : Fin 8) : Bool := d.issueOrder.head? == some i

/-- A response arrives for a slot (R123), unless it is the late one the slot owes (R124). -/
def State.respond (i : Fin 8) (st : Status) (data : Payload) (s : State) : State :=
  let x := s.down.slot i
  if x.owes then s.withDown (s.down.setSlot i { x with owes := false })
  else
    match x.state with
    | .waiting q p =>
      if s.down.isOldest i then (s.completeOldest i .free p st data).deliverHeld 8
      else s.setSlotState i (.held q p st data)
    | .stale _ => s.setSlotState i .free
    | .held _ _ _ _ | .free => s

end Sys2Proof.Machine
end

