-- ==== Sys2Proof/Machine/Upstream.lean ====
section
/-! DEFINITION. The commands of the Upstream Port and the Request Path: UPSTREAM_REQUEST, READ_ANSWER_TAKEN and
REQUEST_TAKEN (R112 to R118). -/

namespace Sys2Proof.Machine

/-- The request that the port stores (R112): the data of a WRITE are the bytes it covers, a READ has none and takes
the next serial number. -/
def storedRequest (b : BusRequest) (nextRead : Nat) : Request where
  kind := b.kind
  addr := b.addr
  shape := b.shape
  data := if b.kind = .write then laneBytes b.shape.bytes b.data else []
  master := b.master
  priv := b.priv
  readId := if b.kind = .read then some nextRead else none

/-- The request is appended to the intake queue, and a read to the order list (R113, R114). -/
def State.accept (b : BusRequest) (s : State) : State :=
  let u := { s.up with intake := s.up.intake ++ [storedRequest b s.up.nextRead] }
  match b.kind with
  | .write => s.withUp u
  | .read =>
    s.withUp { u with
      reads := u.reads ++ [⟨u.nextRead, b.master, b.shape.bytes, none⟩]
      nextRead := u.nextRead + 1 }

/-- UPSTREAM_REQUEST (R113): accepted while the accept line is high. While it is low the request waits on the bus. -/
def execUpstreamRequest (b : BusRequest) (s : State) : Host.Outcome State Fault Refusal :=
  if b.wf then .next (if s.acceptHigh then s.accept b else s) else .refused .illFormedCommand

/-- The head entry leaves the order list; the soft restart ends when the list is empty (R114, R118). -/
def State.takeAnswer (s : State) : State :=
  match s.up.reads with
  | e :: rest =>
    if e.answer.isSome then
      s.withUp { s.up with reads := rest, restarting := s.up.restarting && !rest.isEmpty }
    else s
  | [] => s

/-- READ_ANSWER_TAKEN (R114). No answer is presented while RSTn is asserted (R179). -/
def execReadAnswerTaken (s : State) : Host.Outcome State Fault Refusal :=
  .next (if s.pins.rstnAsserted then s else s.takeAnswer)

/-- The Request Path may take a request (R116, R117): it holds none, no hold is in force, and RSTn is not asserted. -/
def State.mayTake (s : State) : Bool := s.path.isNone && s.cm.hold.isNone && !s.pins.rstnAsserted

/-- The head request is held at the head of the queue (R79). -/
def State.heldAtHead (s : State) (r : Request) : Bool := decide (s.cm.mode = .draining) && s.isSpanRequest r

/-- The request at the head is taken and carried as far as it can go (R116). -/
def State.takeRequestUp (s : State) : State :=
  match s.up.intake with
  | r :: rest => if s.heldAtHead r then s else (s.withUp { s.up with intake := rest }).sort r
  | [] => s

/-- REQUEST_TAKEN (R116). -/
def execRequestTaken (s : State) : Host.Outcome State Fault Refusal :=
  .next (s.afterWords fun t => if t.mayTake then t.takeRequestUp else t)

end Sys2Proof.Machine
end

