-- ==== Sys2Proof/Machine/Downstream.lean ====
section
/-! DEFINITION. The commands of the Downstream Port and of the timers: ARBITER_GRANT, DOWNSTREAM_RESPONSE,
RESPONSE_TIMER_EXPIRY, STALE_PERIOD_EXPIRY (R123, R124, R128) and AGE_TIMER_EXPIRY (R97). -/

namespace Sys2Proof.Machine

/-- ARBITER_GRANT (R128). No request is issued while RSTn is asserted (R179). -/
def execArbiterGrant (s : State) : Host.Outcome State Fault Refusal :=
  .next (s.afterWords fun t => if t.pins.rstnAsserted then t else t.grant)

/-- DOWNSTREAM_RESPONSE (R123). -/
def execDownstreamResponse (slot : Fin 8) (st : Status) (data : Payload) (s : State) :
    Host.Outcome State Fault Refusal :=
  .next (s.afterWords (State.respond slot st data))

/-- The response timer of the oldest WAITING slot expires (R124): its request completes ERROR and it becomes STALE.
The timer of a younger slot cannot expire before (log 19). -/
def State.expire (i : Fin 8) (s : State) : State :=
  match (s.down.slot i).state with
  | .waiting _ p => if s.down.isOldest i then (s.completeOldest i (.stale true) p .error 0).deliverHeld 8 else s
  | .free | .held _ _ _ _ | .stale _ => s

/-- RESPONSE_TIMER_EXPIRY (R124). The timers are stopped while RSTn is asserted (R179). -/
def execResponseTimerExpiry (slot : Fin 8) (s : State) : Host.Outcome State Fault Refusal :=
  .next (s.afterWords fun t => if t.pins.rstnAsserted then t else t.expire slot)

/-- A STALE slot becomes FREE at the end of its period, and owes the late response (R124). A period that starts at the
release of RSTn cannot end before (R127). -/
def State.endStale (i : Fin 8) (s : State) : State :=
  match (s.down.slot i).state with
  | .stale true => s.withDown (s.down.setSlot i ⟨.free, true⟩)
  | .stale false | .free | .waiting _ _ | .held _ _ _ _ => s

/-- STALE_PERIOD_EXPIRY (R124). -/
def execStalePeriodExpiry (slot : Fin 8) (s : State) : Host.Outcome State Fault Refusal := .next (s.endStale slot)

/-- A forwarded access held in settling judges its lines again (R101). -/
def State.settlePath (s : State) : State :=
  match s.path with
  | some ⟨r, .forward addr _⟩ => s.settle r.isWrite addr r.bytes
  | some ⟨_, .walking⟩ | some ⟨_, .counterRead _ _⟩ | some ⟨_, .operation _ _⟩ | some ⟨_, .drainRead _ _⟩
  | some ⟨_, .onLine _ _⟩ | none => s

/-- The age timer of a DIRTY line expires (R97): a write-back with EVICT clear starts. -/
def State.ageExpired (i : Fin 64) (s : State) : State :=
  if (s.line i).state = .dirty ∧ (s.line i).age.isSome = true then (s.startWriteBack false i).settlePath else s

/-- AGE_TIMER_EXPIRY (R97). The timers are stopped while RSTn is asserted (R179). -/
def execAgeTimerExpiry (line : Fin 64) (s : State) : Host.Outcome State Fault Refusal :=
  .next (s.afterWords fun t => if t.pins.rstnAsserted then t else t.ageExpired line)

end Sys2Proof.Machine
end

