-- ==== Sys2Proof/Machine/Control.lean ====
section
/-! DEFINITION. The commands of the Control Monitor: the rows of the recognised REQUEST and CONSUMED words (R137, R145,
R151 to R159), DRAIN_BEGIN (R108, R149) and DISCARD (R110, R150); and the forced bypass (R160). -/

namespace Sys2Proof.Machine

/-! ### REQUEST words -/

/-- REQUEST_NONE (R145): no effect, no ACK. -/
def execRequestNone (tag : Byte) (s : State) : Host.Outcome State Fault Refusal := .next (s.onWord (.request 0 tag))

/-- REFUSED_COMMAND (R151, step 1). -/
def execRefusedCommand (code tag : Byte) (s : State) : Host.Outcome State Fault Refusal :=
  if unknownCode code then .next (s.onWord (.request code tag)) else .refused .illFormedCommand

/-- ACTIVATE (R153, steps 1 and 2). -/
def execActivate (tag : Byte) (s : State) : Host.Outcome State Fault Refusal :=
  .next (s.onWord (.request Command.activate.code tag))

/-- DEACTIVATE (R155). -/
def execDeactivate (tag : Byte) (s : State) : Host.Outcome State Fault Refusal :=
  .next (s.onWord (.request Command.deactivate.code tag))

/-- PURGE (R61, R156). -/
def execPurge (tag : Byte) (s : State) : Host.Outcome State Fault Refusal :=
  .next (s.onWord (.request Command.purge.code tag))

/-- FLUSH (R105, R157). -/
def execFlush (tag : Byte) (s : State) : Host.Outcome State Fault Refusal :=
  .next (s.onWord (.request Command.flush.code tag))

/-- RING_RESTART (R158, steps 1 and 2). -/
def execRingRestart (tag : Byte) (s : State) : Host.Outcome State Fault Refusal :=
  .next (s.onWord (.request Command.ringRestart.code tag))

/-- CLEAR_STATUS (R159). -/
def execClearStatus (tag : Byte) (s : State) : Host.Outcome State Fault Refusal :=
  .next (s.onWord (.request Command.clearStatus.code tag))

/-! ### CONSUMED -/

/-- CONSUMED_WRITE (R137, R145). -/
def execConsumedWrite (index : BitVec 16) (s : State) : Host.Outcome State Fault Refusal :=
  .next (s.onWord (.consumed index))

/-! ### Leaving ACTIVE and HALTED -/

/-- The hold DRAIN_START has taken effect (R149, step 3): the Window Cache is emptied, the cache's part of DRAINING
begins, and the hold is released. -/
def State.beginDrain (s : State) : State :=
  let s := (s.withWindows []).drainLines
  (s.withCm { s.cm with leaving := .draining }).releaseHold.drainedCheck

/-- DRAIN_BEGIN (R108, R149). -/
def execDrainBegin (s : State) : Host.Outcome State Fault Refusal :=
  .next (s.afterWords fun t =>
    if t.cm.hold = some .drainStart ∧ t.cm.leaving = .starting ∧ t.pins.rstnAsserted = false then t.beginDrain else t)

/-- The lines are discarded (R110), DATA_LOST is set, and the ring release begins (R150, steps 1 to 3). -/
def State.discardLines (s : State) : State :=
  let s := (s.withAcc { s.acc with
    lines := AccCache.reset.lines
    order := []
    fillQueue := []
    writeQueue := [] }).raiseDataLost
  s.withCm { s.cm with leaving := .releasing }

/-- DISCARD (R110, R150): once every fill and write-back in flight has completed. -/
def execDiscard (s : State) : Host.Outcome State Fault Refusal :=
  .next (s.afterWords fun t =>
    if t.cm.leaving = .discarding ∧ t.down.cacheInFlight = false ∧ t.pins.rstnAsserted = false then t.discardLines
    else t)

/-! ### The forced bypass -/

/-- A transition to BYPASS is under way: a DEACTIVATE, or another forced bypass, is in progress (R160). -/
def ControlMonitor.bypassUnderWay (c : ControlMonitor) : Bool :=
  match c.inProgress with
  | some (.block .deactivate _) | some .link => true
  | _ => false

/-- The configuration read of an abandoned request (R158, R160): in flight, it keeps its hold until it completes and
its data are discarded; not yet issued, it is withdrawn with its hold (log 18). -/
def State.abandonLoad (s : State) : State :=
  match s.cm.configRead with
  | .inFlight _ => s.withCm { s.cm with configRead := .inFlight true }
  | .offered => (s.withCm { s.cm with configRead := .idle, placed := none }).releaseHold
  | .idle => s.withCm { s.cm with placed := none }

/-- The request in progress is abandoned (R160, step 1). -/
def State.abandonRequest (s : State) : State :=
  match s.cm.inProgress with
  | some (.block .activate _) | some (.block .ringRestart _) => s.abandonLoad.endRequest .abandoned none
  | _ => s.endRequest .abandoned none

/-- A forced bypass (R160). -/
def State.forcedBypass (s : State) : State :=
  if s.cm.bypassUnderWay then s
  else
    let s := s.abandonRequest
    (s.withCm { s.cm with inProgress := some .link }).beginLeaving

end Sys2Proof.Machine
end

