-- ==== Sys2Proof/Machine/Ring.lean ====
section
/-! DEFINITION. The commands of the Event Ring Writer: RING_TAKE_RECORD (R133), RING_RESTART_CARRY_OUT (R139) and
RING_RELEASED (R140, R149, R150). -/

namespace Sys2Proof.Machine

/-- The queue is emptied: a full or broken ring drops every record it holds (R133). -/
def State.dropRecords (s : State) : State := s.withRing { s.ring with queue := [] }

/-- The writer takes the head record (R133): an ACTIVE ring that is not full has it written. A ring that is full drops
it with OVERRUN and a broken one without a flag, and after a drop the writer acts at once on the next in the same way,
so the step leaves no record in the queue. -/
def State.takeRecord (s : State) : State :=
  match s.ring.queue with
  | [] => s
  | e :: rest =>
    match s.ring.state with
    | .active =>
      if s.ring.isFull then s.dropRecords.raiseOverrun
      else s.withRing { s.ring with queue := rest, phase := .record, issued := false, inHand := some e }
    | .broken | .inactive => s.dropRecords

/-- RING_TAKE_RECORD (R133): when the phase is IDLE and no restart is pending. -/
def execRingTakeRecord (s : State) : Host.Outcome State Fault Refusal :=
  .next (s.afterWords fun t =>
    if t.ring.phase = .idle ∧ t.ring.restart = none ∧ t.pins.rstnAsserted = false then t.takeRecord else t)

/-- The restart is carried out (R139). -/
def State.carryOutRestart (base : Addr) (size : Nat) (s : State) : State :=
  let s := s.withRing { s.ring with
    base := base
    size := size
    produced := 0
    consumed := 0
    state := .active
    restart := none
    phase := .index
    issued := false
    inHand := none
    zeroWrite := some .restart }
  s.setFlags { s.cm.flags with ringBroken := false, overrun := false }

/-- The restart is carried out once it is pending and the phase is IDLE (R139). -/
def State.tryRestart (s : State) : State :=
  match s.ring.restart with
  | some (base, size) =>
    if s.ring.phase = .idle ∧ s.pins.rstnAsserted = false then s.carryOutRestart base size else s
  | none => s

/-- RING_RESTART_CARRY_OUT (R139). -/
def execRingRestartCarryOut (s : State) : Host.Outcome State Fault Refusal := .next (s.afterWords State.tryRestart)

/-- The ring is released, and the mode becomes BYPASS (R140; R149, step 6; R150, steps 4 and 5): PRODUCED and CONSUMED
are kept, the fatal cause is NONE, FATAL is clear, and the request in progress ends. -/
def State.releaseRing (s : State) : State :=
  let s := s.withRing { s.ring with state := .inactive, attnEnable := false }
  let s := (s.setMode .bypass .noCause).setFatal false
  (s.withCm { s.cm with leaving := .stay }).endRequest .done none

/-- RING_RELEASED (R140): when the release is awaited, no restart is pending, the queue is empty and the phase is
IDLE. -/
def execRingReleased (s : State) : Host.Outcome State Fault Refusal :=
  .next (s.afterWords fun t =>
    if t.cm.leaving = .releasing ∧ t.ring.restart = none ∧ t.ring.queue = [] ∧ t.ring.phase = .idle
      ∧ t.pins.rstnAsserted = false
    then t.releaseRing else t)

end Sys2Proof.Machine
end

