-- ==== Sys2Proof/Machine/Resets.lean ====
section
/-! DEFINITION. The two resets: RSTN_ASSERT and RSTN_RELEASE (R178 to R181), and the soft restart (R118, R176). -/

namespace Sys2Proof.Machine

/-- A slot at a reset (R127): WAITING and HELD slots become STALE, FREE and STALE ones keep their state. `counting`
says that the STALE period starts now. -/
def Slot.abandon (counting : Bool) (x : Slot) : Slot :=
  match x.state with
  | .waiting _ _ | .held _ _ _ _ => { x with state := .stale counting }
  | .free | .stale _ => x

/-- The Downstream Port at a reset (R127): requests and lock abandoned, the arbiter as though the mirror had been
granted last. -/
def DownPort.abandon (counting : Bool) (d : DownPort) : DownPort :=
  { d.mapSlots (Slot.abandon counting) with issueOrder := [], lock := none, lastGranted := .mirror }

/-- A STALE period that waited for the release of RSTn begins (R127). -/
def Slot.beginStale (x : Slot) : Slot :=
  match x.state with
  | .stale _ => { x with state := .stale true }
  | .free | .waiting _ _ | .held _ _ _ _ => x

/-- The Upstream Port at the soft restart (R118): every read of the order list is made ready with FAULT and all ones,
the queue is emptied, and the accept line is low until the list is empty. -/
def UpstreamPort.softRestart (u : UpstreamPort) : UpstreamPort :=
  { u with
    intake := []
    reads := u.reads.map fun e => { e with answer := some (faultAnswer e.bytes) }
    restarting := !u.reads.isEmpty }

/-- The soft restart (R176): every block but the Management Link takes its state after it. -/
def State.softRestart (s : State) : State :=
  { s with
    up := s.up.softRestart
    path := none
    walker := .idle
    windows := []
    acc := .reset
    down := s.down.abandon true
    ring := .reset
    cm := .reset s.cm.cbBase }

/-- An asserted RSTn (R179): work in flight is abandoned, the timers stop, and the transmitter is cut off. The other
blocks take their state at the release. -/
def State.assertRstn (s : State) : State :=
  { s with
    down := s.down.abandon false
    acc := s.acc.mapLines fun _ l => { l with age := none }
    link := { s.link with gapRunning := false, parser := .idle }
    pins := { s.pins with rstnAsserted := true } }

/-- RSTN_ASSERT (R179). -/
def execRstnAssert (s : State) : Host.Outcome State Fault Refusal :=
  .next (s.afterWords fun t => if t.pins.rstnAsserted then t else t.assertRstn)

/-- The release of RSTn (R178, R180): the straps are taken and every block takes its state after RSTn. Slots keep their
STALE state, whose periods begin, and what they owe. -/
def State.releaseRstn (cbsel : BitVec 3) (mlrate : BitVec 2) (s : State) : State :=
  { s with
    up := .reset
    path := none
    walker := .idle
    windows := []
    acc := .reset
    down := s.down.mapSlots Slot.beginStale
    ring := .reset
    cm := .reset (cbBaseOfStrap cbsel)
    link := .reset mlrate
    pins := { s.pins with rstnAsserted := false } }

/-- RSTN_RELEASE (R180): after an assertion that was taken (R179). -/
def execRstnRelease (cbsel : BitVec 3) (mlrate : BitVec 2) (s : State) : Host.Outcome State Fault Refusal :=
  .next (if s.pins.rstnAsserted then s.releaseRstn cbsel mlrate else s)

end Sys2Proof.Machine
end

