-- ==== Sys2Proof/Machine/LinkUnit.lean ====
section
/-! DEFINITION. The commands of the Management Link (spec/09): the receiver, the parser, the five management commands
and the transmitter. -/

namespace Sys2Proof.Machine

/-! ### The receiver -/

/-- The parser loses a partly assembled command, and no other (R168, R169). -/
def Parser.dropPartial : Parser → Parser
  | .assembling _ => .idle
  | p => p

/-- The receiver enters DISCARD (R169). -/
def Link.enterDiscard (l : Link) : Link :=
  { l with buffer := [], gapAwaiting := false, discard := true, parser := l.parser.dropPartial }

/-- A character without error is appended to the receive buffer, or is an overrun (R167). In DISCARD it is not
placed. -/
def Link.receive (data : Byte) (l : Link) : Link :=
  if l.discard then l
  else if l.buffer.length < Config.bufferDepth then
    { l with buffer := l.buffer ++ [⟨data, l.gapAwaiting⟩], gapAwaiting := false }
  else Link.enterDiscard { l with errors := { l.errors with overrunLine := true } }

/-- A character is judged at its stop bit (R166), and the gap timer starts afresh (R168). While the receiver waits for
the stop level no character arrives. -/
def Link.arrive (data : Byte) (parity stop : Bool) (l : Link) : Link :=
  if l.awaitStop then l
  else
    let l := { l with receiving := false, gapRunning := true, awaitStop := !stop }
    if stop && !oddParity data parity then l.receive data
    else
      Link.enterDiscard { l with errors := { l.errors with
        framing := l.errors.framing || !stop
        parity := l.errors.parity || oddParity data parity } }

/-- The gap timer expires (R168, R169). -/
def Link.gapExpired (l : Link) : Link :=
  let l := { l with gapRunning := false, discard := false }
  match l.buffer, l.parser with
  | [], .assembling _ => { l with parser := .idle, errors := { l.errors with timeoutDiscard := true } }
  | _, _ => { l with gapAwaiting := true }

/-- A step of the link alone; none takes place while RSTn is asserted (R177, R179). -/
def State.onLink (f : Link → Link) (s : State) : State :=
  if s.pins.rstnAsserted then s else s.withLink (f s.link)

/-- CHARACTER_ARRIVAL (R166). -/
def execCharacterArrival (data : Byte) (parity stop : Bool) (s : State) : Host.Outcome State Fault Refusal :=
  .next (s.onLink (Link.arrive data parity stop))

/-- GAP_TIMER_EXPIRY (R168): the timer runs and no start bit has begun since. -/
def execGapTimerExpiry (s : State) : Host.Outcome State Fault Refusal :=
  .next (s.onLink fun l => if l.gapRunning then l.gapExpired else l)

/-- START_BIT_BEGUN (R168): a character begins, and the running gap timer does not expire. -/
def execStartBitBegun (s : State) : Host.Outcome State Fault Refusal :=
  .next (s.onLink fun l => if l.receiving || l.awaitStop then l else { l with receiving := true, gapRunning := false })

/-- MLRX_STOP_LEVEL_RESTORED (R166). -/
def execMlrxStopLevelRestored (s : State) : Host.Outcome State Fault Refusal :=
  .next (s.onLink fun l => { l with awaitStop := false })

/-! ### The transmitter -/

/-- The six bytes of a response (R171): status, data least significant first, check byte. -/
def responseBytes (status : Byte) (data : BitVec 32) : List Byte :=
  let body := status :: leBytes 4 data.toNat
  body ++ [checkSum body]

/-- The response is formed, and its first byte begun if MLCTS is asserted (R171). -/
def State.answerLink (status : Byte) (data : BitVec 32) (thenRestart : Bool) (s : State) : State :=
  s.withLink { s.link with parser := .responding (responseBytes status data) s.pins.mlctsAsserted thenRestart }

/-- The codes of the response status (R171). -/
def statusOk : Byte := 0
def statusBadCheck : Byte := 1
def statusBadCommand : Byte := 2
def statusBadRegister : Byte := 3
def statusRefused : Byte := 4

/-- The byte held for MLCTS is begun (R171). -/
def Parser.begin : Parser → Parser
  | .responding rest _ thenRestart => .responding rest true thenRestart
  | p => p

/-- MLCTS_ASSERTED (R171). -/
def execMlctsAsserted (s : State) : Host.Outcome State Fault Refusal :=
  .next ((s.withPins { s.pins with mlctsAsserted := true }).onLink fun l => { l with parser := l.parser.begin })

/-- MLCTS_DEASSERTED (R171): a byte begun is sent whole; the next is held. -/
def execMlctsDeasserted (s : State) : Host.Outcome State Fault Refusal :=
  .next (s.withPins { s.pins with mlctsAsserted := false })

/-- The stop bit of one of the first five response bytes has been sent; MLCTS is examined for the next (R171). -/
def Parser.byteSent (mlcts : Bool) : Parser → Parser
  | .responding (_ :: b :: rest) true thenRestart => .responding (b :: rest) mlcts thenRestart
  | p => p

/-- RESPONSE_BYTE_SENT (R171). -/
def execResponseByteSent (s : State) : Host.Outcome State Fault Refusal :=
  .next (s.onLink fun l => { l with parser := l.parser.byteSent s.pins.mlctsAsserted })

/-- The sixth byte's stop bit has been sent (R171): the parser is IDLE, and the soft restart of a RESTART follows
(R176). -/
def State.responseDone (s : State) : State :=
  match s.link.parser with
  | .responding [_] true thenRestart =>
    let t := s.withLink { s.link with parser := .idle }
    if thenRestart then t.softRestart else t
  | _ => s

/-- RESPONSE_SENT (R171, R176). -/
def execResponseSent (s : State) : Host.Outcome State Fault Refusal :=
  .next (if s.pins.rstnAsserted then s else s.responseDone)

/-! ### The parser -/

/-- The length of a frame by its opcode (R170). -/
def frameLength (opcode : Byte) : Nat := if opcode = 2 then 7 else 3

/-- The command of a complete frame; none for an unknown opcode (R170, R171). -/
def LinkCommand.ofFrame (frame : List Byte) : Option LinkCommand :=
  let register := frame.getD 1 0
  match (frame.getD 0 0).toNat with
  | 1 => some (.read register)
  | 2 => some (.write register (BitVec.ofNat 32 (leNat ((frame.drop 2).take 4))))
  | 3 => some .forceBypass
  | 4 => some .clearFlags
  | 5 => some .restart
  | _ => none

/-- Steps 1 and 2 of the judgement of a complete frame (R171); a frame that passes them awaits its command's own step
(log 4). -/
def State.judgeFrame (frame : List Byte) (s : State) : State :=
  if frame.getD (frame.length - 1) 0 ≠ checkSum frame.dropLast then
    (s.withLink { s.link with errors := { s.link.errors with badCheckSeen := true } }).answerLink statusBadCheck 0 false
  else
    match LinkCommand.ofFrame frame with
    | none => s.answerLink statusBadCommand 0 false
    | some c => s.withLink { s.link with parser := .serving c }

/-- A byte is added to the frame, which is judged when it reaches its length (R170). -/
def State.extendFrame (taken : List Byte) (b : Byte) (s : State) : State :=
  let frame := taken ++ [b]
  if frame.length < frameLength (frame.getD 0 0) then s.withLink { s.link with parser := .assembling frame }
  else s.judgeFrame frame

/-- The parser takes the head byte of the receive buffer (R170); one that follows a gap discards the bytes already
taken and opens a new command (R168). -/
def State.takeByte (s : State) : State :=
  match s.link.buffer, s.link.parser with
  | x :: rest, .idle => (s.withLink { s.link with buffer := rest }).extendFrame [] x.byte
  | x :: rest, .assembling taken =>
    if x.followsGap then
      (s.withLink { s.link with
        buffer := rest
        errors := { s.link.errors with timeoutDiscard := true } }).extendFrame [] x.byte
    else (s.withLink { s.link with buffer := rest }).extendFrame taken x.byte
  | _, _ => s

/-- PARSER_TAKE_BYTE (R170). -/
def execParserTakeByte (s : State) : Host.Outcome State Fault Refusal :=
  .next (if s.pins.rstnAsserted then s else s.takeByte)

/-! ### The management commands -/

/-- The step that carries out a management command (R171, log 4): the one the parser serves, or one presented whole
while the parser is IDLE. -/
def State.onCommand (c : LinkCommand) (act : State → State) (s : State) : State :=
  if s.pins.rstnAsserted then s
  else
    match s.link.parser with
    | .serving d => if d = c then act s else s
    | .idle => act s
    | .assembling _ | .responding _ _ _ => s

/-- The value of a management register; none for a number that no register has (R172). -/
def State.register (s : State) (number : Byte) : Option (BitVec 32) :=
  let n := number.toNat
  if n = 0 then some Config.partId
  else if n = 1 then
    some (BitVec.ofNat 32 (s.cm.mode.code + 256 * s.cm.fatalCause.code + bitAt s.cm.inProgress.isSome 16))
  else if n = 2 then some (BitVec.ofNat 32 (flagsWord s.cm.flags s.cm.latch))
  else if n = 3 then some (BitVec.ofNat 32 ((s.cm.configCode.map ConfigCode.number).getD 0))
  else if n = 4 then some (s.ring.consumed ++ s.ring.produced)
  else if n = 5 then some (BitVec.ofNat 32 s.link.errors.word)
  else if n = 6 then some s.cm.cbBase
  else if 0x10 ≤ n ∧ n ≤ 0x17 then
    some (BitVec.ofNat 32 (leNat (((lastFaultBytes s.cm.latch).drop (4 * (n - 0x10))).take 4)))
  else none

/-- READ (R171, R172). -/
def execRead (register : Byte) (s : State) : Host.Outcome State Fault Refusal :=
  .next (s.afterWords (State.onCommand (.read register) fun t =>
    match t.register register with
    | some value => t.answerLink statusOk value false
    | none => t.answerLink statusBadRegister 0 false))

/-- WRITE of a register other than CB_BASE (R171, steps 3 and 4). -/
def execWrite (register : Byte) (data : BitVec 32) (s : State) : Host.Outcome State Fault Refusal :=
  if register = cbBaseRegister then .refused .illFormedCommand
  else
    .next (s.onCommand (.write register data) fun t =>
      t.answerLink (if (t.register register).isSome then statusRefused else statusBadRegister) 0 false)

/-- CB_BASE changes (R164, R173): the mirror's words are pending at the new base, and a copy of the last ACK, or the
ACK of zeros, joins the ACK list. -/
def State.moveControlBlock (base : Addr) (s : State) : State :=
  (s.withCm { s.cm with
    cbBase := base
    mirror := { s.cm.mirror with
      modePending := true
      statusPending := true
      faultPending := true
      producedPending := true } }).pushAck (s.cm.mirror.lastAck.getD Ack.zeros)

/-- The conditions of a WRITE of CB_BASE (R173). -/
def State.mayMove (s : State) (data : BitVec 32) : Bool :=
  decide (s.cm.mode = .bypass) && s.cm.inProgress.isNone && data.extractLsb' 0 8 == 0

/-- WRITE_CB_BASE (R173). -/
def execWriteCbBase (data : BitVec 32) (s : State) : Host.Outcome State Fault Refusal :=
  .next (s.afterWords (State.onCommand (.write cbBaseRegister data) fun t =>
    if t.mayMove data then (t.moveControlBlock data).answerLink statusOk 0 false
    else t.answerLink statusRefused 0 false))

/-- FORCE_BYPASS (R160, R174). -/
def execForceBypass (s : State) : Host.Outcome State Fault Refusal :=
  .next (s.afterWords (State.onCommand .forceBypass fun t => t.forcedBypass.answerLink statusOk 0 false))

/-- CLEAR_FLAGS (R175). -/
def execClearFlags (s : State) : Host.Outcome State Fault Refusal :=
  .next (s.afterWords (State.onCommand .clearFlags fun t =>
    let t := t.clearStatus
    (t.withLink { t.link with errors := .clear }).answerLink statusOk 0 false))

/-- RESTART (R176): answered OK; the soft restart follows its response. -/
def execRestart (s : State) : Host.Outcome State Fault Refusal :=
  .next (s.onCommand .restart fun t => t.answerLink statusOk 0 true)

end Sys2Proof.Machine
end

