-- ==== Sys2Proof/Machine/Dispatch.lean ====
section
/-! DEFINITION. The meaning of every command of the table: one arm, one call. -/

namespace Sys2Proof.Machine

def exec (i : Instr) (s : State) : Host.Outcome State Fault Refusal :=
  match i with
  | .upstreamRequest request => Sys2Proof.Machine.execUpstreamRequest request s
  | .readAnswerTaken => Sys2Proof.Machine.execReadAnswerTaken s
  | .requestTaken => Sys2Proof.Machine.execRequestTaken s
  | .arbiterGrant => Sys2Proof.Machine.execArbiterGrant s
  | .requestNone tag => Sys2Proof.Machine.execRequestNone tag s
  | .refusedCommand code tag => Sys2Proof.Machine.execRefusedCommand code tag s
  | .activate tag => Sys2Proof.Machine.execActivate tag s
  | .deactivate tag => Sys2Proof.Machine.execDeactivate tag s
  | .purge tag => Sys2Proof.Machine.execPurge tag s
  | .flush tag => Sys2Proof.Machine.execFlush tag s
  | .ringRestart tag => Sys2Proof.Machine.execRingRestart tag s
  | .clearStatus tag => Sys2Proof.Machine.execClearStatus tag s
  | .consumedWrite index => Sys2Proof.Machine.execConsumedWrite index s
  | .downstreamResponse slot status data => Sys2Proof.Machine.execDownstreamResponse slot status data s
  | .responseTimerExpiry slot => Sys2Proof.Machine.execResponseTimerExpiry slot s
  | .stalePeriodExpiry slot => Sys2Proof.Machine.execStalePeriodExpiry slot s
  | .ageTimerExpiry line => Sys2Proof.Machine.execAgeTimerExpiry line s
  | .drainBegin => Sys2Proof.Machine.execDrainBegin s
  | .discard => Sys2Proof.Machine.execDiscard s
  | .ringReleased => Sys2Proof.Machine.execRingReleased s
  | .ringTakeRecord => Sys2Proof.Machine.execRingTakeRecord s
  | .ringRestartCarryOut => Sys2Proof.Machine.execRingRestartCarryOut s
  | .characterArrival data parity stop => Sys2Proof.Machine.execCharacterArrival data parity stop s
  | .gapTimerExpiry => Sys2Proof.Machine.execGapTimerExpiry s
  | .parserTakeByte => Sys2Proof.Machine.execParserTakeByte s
  | .read register => Sys2Proof.Machine.execRead register s
  | .write register data => Sys2Proof.Machine.execWrite register data s
  | .writeCbBase data => Sys2Proof.Machine.execWriteCbBase data s
  | .forceBypass => Sys2Proof.Machine.execForceBypass s
  | .clearFlags => Sys2Proof.Machine.execClearFlags s
  | .restart => Sys2Proof.Machine.execRestart s
  | .mlctsAsserted => Sys2Proof.Machine.execMlctsAsserted s
  | .responseSent => Sys2Proof.Machine.execResponseSent s
  | .rstnAssert => Sys2Proof.Machine.execRstnAssert s
  | .rstnRelease cbsel mlrate => Sys2Proof.Machine.execRstnRelease cbsel mlrate s
  | .mlctsDeasserted => Sys2Proof.Machine.execMlctsDeasserted s
  | .responseByteSent => Sys2Proof.Machine.execResponseByteSent s
  | .startBitBegun => Sys2Proof.Machine.execStartBitBegun s
  | .mlrxStopLevelRestored => Sys2Proof.Machine.execMlrxStopLevelRestored s

end Sys2Proof.Machine
end

