-- ==== Sys2Proof/Safety.lean ====
section
/-! DEFINITION. The laws of the machine, in the words the statements use: what every collection may hold at most, and
the laws that every step is stated to keep. Each is decidable on a state. -/

namespace Sys2Proof.Machine

/-! ### Sizes -/

/-- Every collection within the size the spec gives it: the intake queue and the order list (R113, R114), the Window
Cache (R49), the pending lists (R82), the record queue (R130), the ACK list (R163) and the receive buffer (R167). -/
abbrev Sizes (s : State) : Prop :=
  s.up.intake.length ≤ 16 ∧ s.up.reads.length ≤ 16 ∧ s.windows.length ≤ 32 ∧
  (∀ i, (s.line i).pending.length ≤ 8) ∧ s.ring.queue.length ≤ 8 ∧ s.cm.mirror.acks.length ≤ 4 ∧
  s.link.buffer.length ≤ 8

/-! ### The Window Cache -/

/-- No two entries of the Window Cache are for the same window (R49). -/
abbrev WindowLaw (s : State) : Prop := s.windows.length ≤ 32 ∧ (s.windows.map (·.window)).Nodup

/-! ### The Accumulator Cache -/

/-- A line holds a counter (R82). -/
abbrev Line.inUse (l : Line) : Prop := l.state ≠ .free

/-- The law of the lines (R82, R83): no two lines that are not FREE hold the same backing address; only a FILLING line
holds pending operations, and never more than 8; the use order lists each line that is not FREE once. -/
abbrev LineLaw (s : State) : Prop :=
  (∀ i j, (s.line i).inUse → (s.line j).inUse → (s.line i).backing = (s.line j).backing → i = j) ∧
  (∀ i, (s.line i).pending ≠ [] → (s.line i).state = .filling) ∧
  (∀ i, (s.line i).pending.length ≤ 8) ∧
  s.acc.order.Nodup ∧ (∀ i, i ∈ s.acc.order ↔ (s.line i).inUse)

/-! ### The Downstream Port -/

/-- The slot holds an issued request that is not complete (R123). -/
def SlotState.issued : SlotState → Bool
  | .waiting _ _ | .held _ _ _ _ => true
  | .free | .stale _ => false

/-- The slot is WAITING (R123). -/
def SlotState.isWaiting : SlotState → Bool
  | .waiting _ _ => true
  | .free | .held _ _ _ _ | .stale _ => false

/-- The law of the slots (R123): the issue order lists each WAITING and HELD slot once, and the oldest of them is
WAITING. -/
abbrev SlotLaw (s : State) : Prop :=
  s.down.issueOrder.Nodup ∧ (∀ i, i ∈ s.down.issueOrder ↔ (s.down.slot i).state.issued = true) ∧
  (∀ i ∈ s.down.issueOrder.head?, (s.down.slot i).state.isWaiting = true)

/-! ### The event ring -/

/-- The law of the ring (R131, R132): the ring holds 2^4 … 2^12 records, its fill lies between 0 and its size, a record
is in hand only while it is being written and there is room for it, and the PRODUCED write of 0 is made with both indices
0. -/
abbrev RingLaw (r : RingWriter) : Prop :=
  4 ≤ r.size ∧ r.size ≤ 12 ∧ (∀ p ∈ r.restart, 4 ≤ p.2 ∧ p.2 ≤ 12) ∧
  r.fill ≤ 2 ^ r.size ∧
  (r.inHand.isSome = true → r.fill < 2 ^ r.size) ∧
  (r.phase = .idle → r.inHand = none) ∧
  (r.phase = .record → r.inHand.isSome = true) ∧
  (r.phase = .index → r.inHand = none → r.produced = 0 ∧ r.consumed = 0)

/-! ### The modes -/

/-- The fatal cause is WRITEBACK_ERROR, and FATAL is set, exactly in HALTED (R147, R161). -/
abbrev FatalLaw (s : State) : Prop :=
  (s.cm.fatalCause = .writebackError ↔ s.cm.mode = .halted) ∧ (s.cm.flags.fatal = true ↔ s.cm.mode = .halted)

/-- The Request Path holds a request that is on its way to the Accumulator Cache: an operation or a DRAIN read. -/
def Held.handing (h : Held) : Bool :=
  match h.stage with
  | .operation _ _ | .drainRead _ _ => true
  | .walking | .forward _ _ | .counterRead _ _ | .onLine _ _ => false

/-- The Request Path holds a request for which a walk or a locked update is being made. -/
def Held.isWalking (h : Held) : Bool :=
  match h.stage with
  | .walking => true
  | .forward _ _ | .counterRead _ _ | .operation _ _ | .drainRead _ _ | .onLine _ _ => false

/-- Where the bridge may stand on its way to BYPASS in each mode (R149, R150). -/
def Mode.mayLeave : Mode → Leaving → Bool
  | .bypass, .stay | .active, .stay => true
  | .draining, .starting | .draining, .draining | .draining, .releasing => true
  | .halted, .stay | .halted, .discarding | .halted, .releasing => true
  | .bypass, .starting | .bypass, .draining | .bypass, .discarding | .bypass, .releasing => false
  | .active, .starting | .active, .draining | .active, .discarding | .active, .releasing => false
  | .draining, .stay | .draining, .discarding => false
  | .halted, .starting | .halted, .draining => false

/-- DRAINING with the Window Cache emptied and the lines being drained, or already released (R149, steps 3 to 5). -/
abbrev State.drainBegun (s : State) : Prop :=
  s.cm.mode = .draining ∧ (s.cm.leaving = .draining ∨ s.cm.leaving = .releasing)

/-- The law of the modes (R79, R108, R117, R147 to R150): in BYPASS, and while the ring release is awaited, every line
is FREE; the Window Cache is empty in BYPASS, in HALTED and from the beginning of the drain; no request is on its way to
the Accumulator Cache in BYPASS or HALTED, nor in a walk or on its way there once the drain has begun; a hold is in
force only while the Request Path holds no request. -/
abbrev ModeLaw (s : State) : Prop :=
  s.cm.mode.mayLeave s.cm.leaving = true ∧
  (s.cm.mode = .bypass ∨ s.cm.leaving = .releasing → ∀ i, (s.line i).state = .free) ∧
  (s.cm.mode = .bypass ∨ s.cm.mode = .halted ∨ s.drainBegun → s.windows = []) ∧
  (s.cm.mode = .bypass ∨ s.cm.mode = .halted ∨ s.drainBegun → ∀ h ∈ s.path, h.handing = false) ∧
  (s.drainBegun → ∀ h ∈ s.path, h.isWalking = false) ∧
  (s.cm.hold.isSome = true → s.path = none)

/-! ### Words the statements use -/

/-- RSTn is not asserted (R179). -/
abbrev State.running (s : State) : Prop := s.pins.rstnAsserted = false

/-- RSTn is not asserted and no recognised word waits, so a command's own step is what comes next (R179; log 3). -/
abbrev State.current (s : State) : Prop := s.running ∧ s.cm.recognised = []

/-- A recognised word is what its own row takes next: RSTn is not asserted, and it is the word at the head of those that
wait, or none waits (R145; log 3). -/
abbrev State.takesWord (s : State) (w : ControlWord) : Prop := s.running ∧ ∀ h ∈ s.cm.recognised.head?, h = w

/-- The machine with the recognised word at the head taken. -/
def State.wordTaken (s : State) : State := { s with cm := { s.cm with recognised := s.cm.recognised.tail } }

/-- A management command may be carried out: RSTn is not asserted, and the parser serves it or is IDLE (R171; log 4). -/
abbrev State.takesCommand (s : State) (c : LinkCommand) : Prop :=
  s.running ∧ (s.link.parser = .serving c ∨ s.link.parser = .idle)

/-- The machine with a response of six bytes formed (R171): the status, the data least significant byte first and the
check byte, the first byte begun if MLCTS is asserted. -/
def State.responding (s : State) (status : Byte) (data : BitVec 32) (thenRestart : Bool) : State :=
  let d := [data.extractLsb' 0 8, data.extractLsb' 8 8, data.extractLsb' 16 8, data.extractLsb' 24 8]
  { s with link := { s.link with
      parser := .responding ([status] ++ d ++ [status + d.sum]) s.pins.mlctsAsserted thenRestart } }

/-- The row that a REQUEST word of a known command is taken by. -/
def Command.instr : Command → Byte → Instr
  | .activate, tag => .activate tag
  | .deactivate, tag => .deactivate tag
  | .purge, tag => .purge tag
  | .flush, tag => .flush tag
  | .ringRestart, tag => .ringRestart tag
  | .clearStatus, tag => .clearStatus tag

/-- The row that a recognised word is taken by (R145, R151). -/
def ControlWord.instr : ControlWord → Instr
  | .consumed index => .consumedWrite index
  | .request code tag =>
    if code = 0 then .requestNone tag
    else
      match Command.ofCode code with
      | some c => c.instr tag
      | none => .refusedCommand code tag

/-- The command's row is a recognised word's own. -/
def takesItsWord : Instr → Bool
  | .requestNone _ | .refusedCommand _ _ | .activate _ | .deactivate _ | .purge _ | .flush _ | .ringRestart _
  | .clearStatus _ | .consumedWrite _ => true
  | _ => false

/-- The command reads or changes something that a recognised word changes or reads (R145; log 3). -/
def meetsWords : Instr → Bool
  | .requestTaken | .arbiterGrant | .downstreamResponse _ _ _ | .responseTimerExpiry _ | .ageTimerExpiry _ | .drainBegin
  | .discard | .ringReleased | .ringTakeRecord | .ringRestartCarryOut | .read _ | .writeCbBase _ | .forceBypass
  | .clearFlags | .rstnAssert => true
  | _ => false

/-- A FLUSH is in progress (R157). -/
def State.flushing (s : State) : Bool :=
  match s.cm.inProgress with
  | some (.block .flush _) => true
  | _ => false

/-- What is reported once a change of the lines is over: with no flush mark left, a FLUSH in progress ends with ACK
DONE (R107, R157); with every line FREE in the drain, the ring release is awaited (R108, R149). -/
def State.linesReported (s : State) : State :=
  let flushed : State :=
    match s.cm.inProgress with
    | some (.block .flush tag) =>
      if ∀ i, (s.line i).flushMark = false then
        State.formAck ⟨4, tag, some .done, 0⟩ { s with cm := { s.cm with inProgress := none } }
      else s
    | _ => s
  if s.cm.leaving = .draining ∧ ∀ i, (s.line i).state = .free then
    { flushed with cm := { flushed.cm with leaving := .releasing } }
  else flushed

/-- The lines that are DIRTY, by rising number. -/
def State.dirtyLines (s : State) : List (Fin 64) := s.linesIn .dirty

/-- The Request Path may take the request at the head of the intake queue (R116, R117; log 3). -/
abbrev State.pathFree (s : State) : Prop := s.current ∧ s.path = none ∧ s.cm.hold = none

/-- No line that is not FREE overlaps a range of bytes (R101). -/
abbrev State.clearOf (s : State) (addr : Addr) (n : Nat) : Prop :=
  ∀ i, (s.line i).state = .free ∨ ¬ (max addr.toNat (s.line i).backing.toNat
    < min (addr.toNat + n) ((s.line i).backing.toNat + 8))

end Sys2Proof.Machine
end

