-- ==== Sys2Proof/Certificates/Slice0/Obligations.lean ====
section
/-! DEFINITION. The statements about the model, in the order of spec/: the machine, counters (spec/01), windows
(spec/02 to 04), lines (spec/05), ports (spec/06), the ring (spec/07), the Control Monitor (spec/08), the link (spec/09),
resets (spec/10), and the laws that every step keeps. -/

open Sys2Proof Sys2Proof.Machine

/-! ### The machine -/

/-- A step runs the command at the front of the queue on the state with the queue's rest. -/
def Obligations.StepRunsTheFrontOfTheQueue : Prop :=
  ∀ (c : Instr) (q : List Instr) (s : State), step { s with pending := c :: q } = exec c { s with pending := q }

/-- Every command of the table answers a next state in every state, which is the same state where the command's step
cannot take place (the model's choice, log 1); a term that is no command of the table is refused (the model's choice,
log 22). No command changes the queue of those that wait behind it (the queue is the model's own). With nothing queued
the bridge idles (the model's choice, log 2). -/
def Obligations.CommandsAnswerAndKeepTheQueue : Prop :=
  (∀ (c : Instr) (s : State),
      (c.wf = true → ∃ t, exec c s = .next t) ∧ (c.wf = false → exec c s = .refused .illFormedCommand)) ∧
  (∀ (c : Instr) (s t : State), exec c s = .next t → t.pending = s.pending) ∧
  (∀ s : State, s.pending = [] → step s = .next s)

/-! ### Counters (spec/01) -/

/-- A record taken from memory is VALUE, OVF, HIT and ARM at the places of 11.2, whatever the reserved bits hold; a
record written has its reserved bits 0, its least significant byte first (R182); and what is written is read back. A
read of `size` bytes at `offset` of a presented record returns bytes of the stored record under LITTLE, and of its
reverse under BIG (R3). R22: the clamped view is VALUE saturated to 8, 16, 32 or, for 8 bytes, 48 bits, in two's
complement at the size, little-endian, reversed under BIG. -/
def Obligations.RecordsAreStoredAndPresented : Prop :=
  ((∀ w : BitVec 64, (Record.decode w).value = w.extractLsb' 0 56 ∧ (Record.decode w).ovf = w.getLsbD 56 ∧
      (Record.decode w).hit = w.getLsbD 57 ∧ (Record.decode w).arm = w.getLsbD 58) ∧
    (∀ r : Record, r.word.extractLsb' 59 5 = 0 ∧ Record.decode r.word = r ∧
      r.bytes = (List.range 8).map fun k => r.word.extractLsb' (8 * k) 8)) ∧
  (∀ (order : Order) (offset : Nat) (size : Size) (r : Record), offset + size.bytes ≤ 8 →
      ((View.presented order offset size).answer r).length = size.bytes ∧
      ∀ k, k < size.bytes →
        ((View.presented order offset size).answer r)[k]? =
          some (r.word.extractLsb' (8 * (if order = .little then offset + k else 7 - (offset + k))) 8)) ∧
  (∀ (order : Order) (size : Size) (r : Record),
      let bits := match size with
        | .b1 => 8
        | .b2 => 16
        | .b4 => 32
        | .b8 => 48
      let bytes := (View.clamped order size).answer r
      bytes.length = size.bytes ∧
      (BitVec.ofNat (8 * size.bytes) (leNat (if order = .big then bytes.reverse else bytes))).toInt =
        max (-2 ^ (bits - 1)) (min (2 ^ (bits - 1) - 1) r.value.toInt))

/-- R4: the operand is the data, reversed under BIG, as an unsigned or a two's-complement little-endian integer. -/
def Obligations.OperandsFollowOrderAndSigned : Prop :=
  ∀ (order : Order) (data : List Byte), data.length ∈ [1, 2, 4, 8] →
    let n := leNat (if order = .big then data.reverse else data)
    n < 2 ^ (8 * data.length) ∧ operandOf order false data = n ∧
    operandOf order true data = (BitVec.ofNat (8 * data.length) n).toInt

/-- R7, R10, R11 (and the sum of R12): an exact sum in the range is the new VALUE and keeps OVF; one outside it sets
OVF and is wrapped or clamped by POLICY. -/
def Obligations.SumsAreHandledByPolicy : Prop :=
  ∀ (op : PendingOp) (r : Record) (exact : Int),
    (op.kind = .add ∧ exact = r.value.toInt + op.operand) ∨ (op.kind = .tally ∧ exact = r.value.toInt + 1) ∨
      (op.kind = .wadd ∧ exact = r.value.toInt + waddIncrement op.params op.operand) →
    let new := (evaluate op r).record
    (-2 ^ 55 ≤ exact ∧ exact ≤ 2 ^ 55 - 1 → new.value.toInt = exact ∧ new.ovf = r.ovf) ∧
    (exact < -2 ^ 55 ∨ 2 ^ 55 - 1 < exact → new.ovf = true ∧
      (op.params.policy = .wrap → new.value.toInt = (exact + 2 ^ 55) % 2 ^ 56 - 2 ^ 55) ∧
      (op.params.policy = .clamp → new.value.toInt = if exact < 0 then -2 ^ 55 else 2 ^ 55 - 1))

/-- R13: the increment `q` is P / 2^SHIFT rounded by ROUND: the floor; the nearest, halves up; the nearest, halves to
even. -/
def Obligations.WeightedIncrementsAreRounded : Prop :=
  ∀ (p : Params) (operand : Int),
    let P := operand * p.weight.toInt
    let d : Int := 2 ^ p.shift.toNat
    let q := waddIncrement p operand
    (p.shift.toNat = 0 → q = P) ∧
    (p.round = .trunc → q * d ≤ P ∧ P < (q + 1) * d) ∧
    (p.round = .halfUp → q * d * 2 ≤ 2 * P + d ∧ 2 * P + d < (q + 1) * d * 2) ∧
    (p.round = .halfEven → 2 * |P - q * d| ≤ d ∧ (2 * |P - q * d| = d → q % 2 = 0))

/-- R8: an operand outside the range acts as the nearer limit and sets OVF, whatever POLICY; one inside it keeps OVF,
except under PRESET. R14, R15, R16: PEAK keeps the greater, VALLEY the lesser, PEAKMAG the one of greater magnitude
(VALUE when equal), LOAD the operand, each after the clamping of R8; ARM is kept, and HIT is left to the watch. R17,
R18: PRESET sets VALUE to the clamped operand, OVF to whether it was clamped, and clears HIT; REARM clears HIT and
makes ARM follow the operand; neither fires the watch. -/
def Obligations.ComparisonsLoadPresetAndRearm : Prop :=
  (∀ (op : PendingOp) (r : Record), op.kind ∈ [.peak, .valley, .peakMag, .load, .preset] →
      (2 ^ 55 - 1 < op.operand →
        (evaluate op r).record = { (evaluate { op with operand := 2 ^ 55 - 1 } r).record with ovf := true }) ∧
      (op.operand < -2 ^ 55 →
        (evaluate op r).record = { (evaluate { op with operand := -2 ^ 55 } r).record with ovf := true }) ∧
      (-2 ^ 55 ≤ op.operand ∧ op.operand ≤ 2 ^ 55 - 1 → op.kind ≠ .preset → (evaluate op r).record.ovf = r.ovf)) ∧
  (∀ (op : PendingOp) (r : Record),
      let x : Int := max (-2 ^ 55) (min (2 ^ 55 - 1) op.operand)
      let e := evaluate op r
      (op.kind = .peak → e.record.value.toInt = max r.value.toInt x) ∧
      (op.kind = .valley → e.record.value.toInt = min r.value.toInt x) ∧
      (op.kind = .peakMag → e.record.value.toInt = if |r.value.toInt| < |x| then x else r.value.toInt) ∧
      (op.kind = .load → e.record.value.toInt = x) ∧
      (op.kind ∈ [.peak, .valley, .peakMag, .load] →
        e.record.arm = r.arm ∧ (e.fired = false → e.record.hit = r.hit) ∧
        e.record.ovf = (r.ovf || decide (op.operand < -2 ^ 55 ∨ 2 ^ 55 - 1 < op.operand)))) ∧
  (∀ (op : PendingOp) (r : Record),
      let x : Int := max (-2 ^ 55) (min (2 ^ 55 - 1) op.operand)
      let e := evaluate op r
      (op.kind = .preset → e.fired = false ∧ e.record.value.toInt = x ∧ e.record.hit = false ∧ e.record.arm = r.arm ∧
        e.record.ovf = decide (op.operand < -2 ^ 55 ∨ 2 ^ 55 - 1 < op.operand)) ∧
      (op.kind = .rearm → e.fired = false ∧
        e.record = { r with hit := false, arm := decide (op.operand ≠ 0) }))

/-- R20: the watch of an accumulate operation fires exactly when its bit is watched, ARM is set, HIT is clear and the
bit rises; HIT is then set. -/
def Obligations.TheWatchFiresOnARisingBit : Prop :=
  ∀ (op : PendingOp) (r : Record), op.kind ≠ .preset → op.kind ≠ .rearm →
    let e := evaluate op r
    let w := op.params.watch.toNat
    (e.fired = true ↔ w ≤ 55 ∧ r.arm = true ∧ r.hit = false ∧ r.value.getLsbD w = false ∧
      e.record.value.getLsbD w = true) ∧
    (e.fired = true → e.record.hit = true) ∧ (e.fired = false → e.record.hit = r.hit) ∧ e.record.arm = r.arm

/-! ### Windows (spec/02 to 04) -/

/-- R28, R30, with the places of 11.3 and 11.4: which directory entries and which present descriptors are malformed,
and what every field of one that is not malformed is, byte and bit as the tables place it; the operation that each OP
names. R31, R32: effective user rights are the more restrictive of the directory's and the descriptor's; supervisor
rights are FULL without STRICT, and otherwise FULL exactly where the user rights are, and READ elsewhere. -/
def Obligations.TablesAndRightsAreJudged : Prop :=
  ((∀ (c : LoadedConfig) (w : BitVec 64),
      let base := (w.extractLsb' 32 21).toNat * 2048
      dirRightsOf c (DirFields.decode w) = none ↔
        w.extractLsb' 1 2 = 3 ∨
          (base < c.spanBase.toNat + 2 ^ 18 * 2 ^ c.spanSize ∧ c.spanBase.toNat < base + 2048)) ∧
    (∀ (c : LoadedConfig) (w : BitVec 128), w.getLsbD 0 = true →
      let base := (w.extractLsb' 32 21).toNat * 2048
      let watch := (w.extractLsb' 80 6).toNat
      descriptorOf c w = .error .malformed ↔
        4 ≤ (w.extractLsb' 1 3).toNat ∨ w.extractLsb' 4 2 = 3 ∨
          (base < c.spanBase.toNat + 2 ^ 18 * 2 ^ c.spanSize ∧ c.spanBase.toNat < base + 2048) ∨
          (w.extractLsb' 1 3 = 1 ∧ 7 ≤ (w.extractLsb' 16 4).toNat) ∨ w.extractLsb' 14 2 = 3 ∨
          (56 ≤ watch ∧ watch ≤ 62)) ∧
    (∀ (c : LoadedConfig) (w : BitVec 128), w.getLsbD 0 = false → descriptorOf c w = .error .winAbsent)) ∧
  ((∀ (c : LoadedConfig) (w : BitVec 64) (rights : Rights), dirRightsOf c (.decode w) = some rights →
      [Rights.noAccess, .readOnly, .full][(w.extractLsb' 1 2).toNat]? = some rights) ∧
    (∀ (c : LoadedConfig) (w : BitVec 128) (d : Descriptor), descriptorOf c w = .ok d →
      [WindowKind.direct, .accumulate, .clampedView, .drain][(w.extractLsb' 1 3).toNat]? = some d.kind ∧
      [Rights.noAccess, .readOnly, .full][(w.extractLsb' 4 2).toNat]? = some d.userRights ∧
      d.strict = w.getLsbD 6 ∧ (d.order = .big ↔ w.getLsbD 7 = true) ∧
      d.groups = w.extractLsb' (8 * 1) 4 ∧ d.params.signed = w.getLsbD (8 * 1 + 4) ∧
      (d.params.policy = .clamp ↔ w.getLsbD (8 * 1 + 5) = true) ∧
      [Round.trunc, .halfUp, .halfEven][(w.extractLsb' (8 * 1 + 6) 2).toNat]? = some d.params.round ∧
      d.params.op = w.extractLsb' (8 * 2) 4 ∧ d.params.shift = w.extractLsb' (8 * 3) 5 ∧
      d.backing.toNat = 2048 * (w.extractLsb' (8 * 4) 21).toNat ∧
      d.params.weight = w.extractLsb' (8 * 8) 16 ∧ d.params.watch = w.extractLsb' (8 * 10) 6) ∧
    (∀ op : BitVec 4,
      accumulateOp op = [OpKind.add, .tally, .wadd, .peak, .valley, .peakMag, .load][op.toNat]?)) ∧
  (∀ (dirRights : Rights) (d : Descriptor),
      (rightsFor .usr dirRights d).rank = min dirRights.rank d.userRights.rank ∧
      (rightsFor .usr dirRights d = dirRights ∨ rightsFor .usr dirRights d = d.userRights) ∧
      (d.strict = false → rightsFor .sup dirRights d = .full) ∧
      (d.strict = true → rightsFor .sup dirRights d =
        if dirRights = .full ∧ d.userRights = .full then .full else .readOnly))

/-- Tests 5 to 7 of R39, with R33 and R34: the first of rights, group and shape that fails gives the cause; a request
that passes all three has none. The record's backing field is that of R47 and R77. R67, step 2, and R65's burst of one
beat apart: which aligned accesses each KIND admits within a window, as the table gives them. -/
def Obligations.TheFirstFailedTestGivesTheCause : Prop :=
  (∀ (c : LoadedConfig) (second : Bool) (dirRights : Rights) (d : Descriptor) (r : Request),
      let needed := if r.kind = .write ∨ d.kind = .drain then 2 else 1
      let group := ((c.groupMap >>> (2 * r.master.val)) &&& 3).toNat
      let window := (r.addr.toNat - c.spanBase.toNat) / 2048
      let offset := (r.addr.toNat - c.spanBase.toNat) % 2048
      let backing := d.backing + BitVec.ofNat 32 offset
      let enough := needed ≤ (rightsFor r.priv dirRights d).rank
      let admitted := d.groups.getLsbD group = true
      let shape := shapeFault d.kind r.kind r.shape offset
      (¬ enough → judge c second dirRights d r = some ⟨.rights, window, if second then some backing else none⟩) ∧
      (enough → ¬ admitted → judge c second dirRights d r = some ⟨.group, window, none⟩) ∧
      (enough → admitted → judge c second dirRights d r = shape.map fun cause => ⟨cause, window, some backing⟩)) ∧
  (∀ (window : WindowKind) (kind : AccessKind) (shape : Shape) (offset : Nat), offset < 2048 →
      (∀ beats, shape = .burst beats →
        shapeFault window kind shape offset =
          if 2048 < offset + 8 * beats then some .boundary else if window = .direct then none else some .shape) ∧
      (∀ size, shape = .single size → offset % size.bytes = 0 →
        shapeFault window kind shape offset =
          match window, kind with
          | .direct, _ | .accumulate, .read => none
          | .clampedView, .read => if offset % 8 = 0 then none else some .shape
          | .drain, .read => if size = .b8 then none else some .shape
          | _, .write => if offset % 8 = 0 then none else some .shape))

/-- R36 to R38, R40, R52, R76, R77: the walk offers the READ of its 8-byte directory entry, and then that of its
16-byte descriptor as two beats, each until it is issued. A completion of the walk's reads: an ERROR, an entry that is
not present and a malformed one end the walk with a fault: the answer or drop, the FAULT record, the report to the
latch. The directory entry leads to the descriptor READ, and the descriptor to the entry on which the request is
judged, which is inserted as most recently used in ACTIVE and DRAINING and not inserted in HALTED and BYPASS. -/
def Obligations.TheWalkReadsTheTables : Prop :=
  ∀ (s : State) (r : Request) (data : Payload), s.path = some ⟨r, .walking⟩ →
    let w := s.walker
    let fault (cause : Cause) : State :=
      let e : EventRecord := ⟨.fault, some cause, r.master, (Access.mk r.kind r.priv r.shape).byte, r.addr, none,
        BitVec.ofNat 32 w.window, .zero, .zero⟩
      ((((({ s with walker := .idle }.answerRequest r ⟨.fault, List.replicate r.shape.bytes 0xFF⟩).handRecord e
        ).reportFault e).withPath none).settleHold)
    let dir : BitVec 64 := data.setWidth 64
    let desc : BitVec 128 := data.setWidth 128
    (w.phase = .dirRead → w.issued = false →
      s.offer .path = some (.read w.dirAddr (.single .b8), .dirRead)) ∧
    (w.phase = .descRead → w.issued = false → s.offer .path = some (.read w.descAddr (.burst 2), .descRead)) ∧
    (w.issued = true → s.offer .path = none) ∧
    s.complete .dirRead .error data = fault .tableError ∧
    (dir.getLsbD 0 = false → s.complete .dirRead .okay data = fault .dirAbsent) ∧
    (dir.getLsbD 0 = true → dirRightsOf s.cm.config (.decode dir) = none →
      s.complete .dirRead .okay data = fault .malformed) ∧
    (∀ rights, dir.getLsbD 0 = true → dirRightsOf s.cm.config (.decode dir) = some rights →
      s.complete .dirRead .okay data = { s with walker := { w with
        phase := .descRead
        issued := false
        dirEntry := dir
        dirRights := rights
        descAddr := BitVec.ofNat 32 ((dir.extractLsb' 32 21).toNat * 2048 + 16 * (w.window % 128)) } }) ∧
    s.complete .descRead .error data = fault .tableError ∧
    (∀ cause, descriptorOf s.cm.config desc = .error cause → s.complete .descRead .okay data = fault cause) ∧
    (∀ d, descriptorOf s.cm.config desc = .ok d →
      let e : WindowEntry :=
        ⟨w.window, w.dirAddr, w.descAddr, w.dirRights, d, desc.getLsbD (8 * 12), desc.getLsbD (8 * 12 + 1)⟩
      s.complete .descRead .okay data = State.judged r e { s with
        walker := .idle
        windows := if s.cm.mode = .active ∨ s.cm.mode = .draining then insertWindow e s.windows else s.windows })

/-- R41 to R47, R54 to R56: a request that passed on an entry with the indicators it needs is executed. One that
passed on an entry without a needed indicator begins a locked update in ACTIVE and DRAINING, the walker LOCKED with
the entry's window, addresses and directory rights and the backing address formed from the entry's descriptor. R81: in
HALTED (and in BYPASS after it, as log 17 deduces) an update not yet begun is not begun, and the request is refused: a
read answered FAULT, a write dropped with DROPPED. (One whose LOCKED_READ is offered has begun, as log 15 deduces: O21
has it go on.) The LOCKED_READ's OKAY offers the UNLOCKING_WRITE of the bytes read, with TOUCHED (byte 12, bit 0) set
and CHANGED (bit 1) set if the request needs it, or as read if the second judgement failed; its ERROR offers the
RELEASE. Either completion of the RELEASE, and an ERROR of the write, end the lock, drop the window's entry and fault
with TABLE_ERROR. An OKAY of the write ends the lock: a request that passed the second judgement is executed on the
descriptor read under the lock, with the window's entry made from it (none is made in HALTED and BYPASS, R54); one
that failed faults as judged, and the window's entry is removed (R55: the descriptor is not present or malformed) or,
where the cache holds one, made from the descriptor read, with the indicators as read and as most recently used. -/
def Obligations.TheLockedUpdateSetsTheIndicators : Prop :=
  (∀ (changed : Bool) (w : BitVec 128) (i : Nat), i < 128 →
    (descMarked changed w).getLsbD i = (w.getLsbD i || i == 8 * 12 || (changed && i == 8 * 12 + 1))) ∧
  (∀ (s : State) (r : Request) (e : WindowEntry), judge s.cm.config false e.dirRights e.desc r = none →
    let full := r.kind = .write ∨ e.desc.kind = .drain
    let needs := e.touchedKnown = false ∨ (full ∧ e.changedKnown = false)
    let offset := (r.addr.toNat - s.cm.config.spanBase.toNat) % 2048
    let begun : State := { s with
      path := some ⟨r, .walking⟩
      walker := { Walker.idle with
        phase := .locked
        window := e.window
        dirAddr := e.dirAddr
        descAddr := e.descAddr
        dirRights := e.dirRights
        priorBacking := e.desc.backing + BitVec.ofNat 32 offset
        needChanged := decide full } }
    (¬ needs → s.judged r e = s.execute r e.desc) ∧
    (needs → s.cm.mode = .active ∨ s.cm.mode = .draining →
      s.judged r e = begun ∧ begun.offer .path = some (.lockedRead e.descAddr, .lockedRead)) ∧
    (needs → s.cm.mode = .halted ∨ s.cm.mode = .bypass →
      (r.kind = .write → s.judged r e = State.settleHold { s with
        path := none
        cm := { s.cm with
          flags := { s.cm.flags with dropped := true }
          mirror := { s.cm.mirror with statusPending := s.cm.mirror.statusPending || !s.cm.flags.dropped } } }) ∧
      (∀ id, r.kind = .read → r.readId = some id → s.judged r e = State.settleHold { s with
        path := none
        up := { s.up with reads := s.up.reads.map fun (e : ReadEntry) =>
          if e.id = id then { e with answer := some ⟨.fault, List.replicate r.shape.bytes 0xFF⟩ } else e } }))) ∧
  (∀ (s : State) (r : Request) (data : Payload), s.path = some ⟨r, .walking⟩ →
    let w := s.walker
    let ok := s.complete .lockedRead .okay data
    let ended (windows : List WindowEntry) : State :=
      { s with walker := .idle, down := { s.down with lock := none }, windows := windows }
    let bytes : BitVec 128 := data.setWidth 128
    (s.complete .lockedRead .error data).offer .path = some (.release w.descAddr, .release) ∧
    ok.offer .path = some (.unlockingWrite w.descAddr
      (leBytes 16 (if ok.walker.verdict = none then descMarked w.needChanged bytes else bytes).toNat), .unlockingWrite) ∧
    (∀ d, descriptorOf s.cm.config bytes = .ok d → ok.walker.verdict = judge s.cm.config true w.dirRights d r) ∧
    (∀ c, descriptorOf s.cm.config bytes = .error c → ok.walker.verdict = some ⟨c, w.window, none⟩) ∧
    (∀ st, s.complete .release st data = s.complete .unlockingWrite .error data) ∧
    s.complete .unlockingWrite .error data =
      State.faultWith r ⟨.tableError, w.window, some w.priorBacking⟩ { s with
        walker := .idle
        down := { s.down with lock := none }
        windows := s.windows.filter fun e => e.window ≠ w.window } ∧
    (∀ d, w.verdict = none → descriptorOf s.cm.config w.descRead = .ok d →
      let e : WindowEntry := ⟨w.window, w.dirAddr, w.descAddr, w.dirRights, d, true,
        w.needChanged || w.descRead.getLsbD (8 * 12 + 1)⟩
      s.complete .unlockingWrite .okay data = State.execute r d (ended
        (if s.cm.mode = .active ∨ s.cm.mode = .draining then insertWindow e s.windows else s.windows))) ∧
    (∀ f cause, w.verdict = some f → descriptorOf s.cm.config w.descRead = .error cause →
      s.complete .unlockingWrite .okay data = (ended (s.windows.filter fun e => e.window ≠ w.window)).faultWith r f) ∧
    (∀ f d, w.verdict = some f → descriptorOf s.cm.config w.descRead = .ok d →
      ((∀ e ∈ s.windows, e.window ≠ w.window) →
        s.complete .unlockingWrite .okay data = (ended s.windows).faultWith r f) ∧
      ((∃ e ∈ s.windows, e.window = w.window) →
        s.complete .unlockingWrite .okay data = (ended (insertWindow ⟨w.window, w.dirAddr, w.descAddr, w.dirRights, d,
          w.descRead.getLsbD (8 * 12), w.descRead.getLsbD (8 * 12 + 1)⟩ s.windows)).faultWith r f)))

/-- R50, R52, R53: an entry inserted is the most recently used and the only one for its window; the others keep their
order, and a cache of 32 other entries first loses its least recently used one. R58: an observed write of `n` bytes
removes the entries whose 8 directory bytes or 16 descriptor bytes share a byte with it, keeps the rest in their
order, and changes nothing else. -/
def Obligations.TheWindowCacheKeepsUseOrder : Prop :=
  (∀ (e : WindowEntry) (es : List WindowEntry),
      let others := es.filter fun x => x.window ≠ e.window
      (others.length < 32 → insertWindow e es = others ++ [e]) ∧
      (∀ old rest, others = old :: rest → rest.length = 31 → insertWindow e es = rest ++ [e])) ∧
  (∀ (s : State) (addr : Addr) (n : Nat),
      let meets (a m : Nat) : Prop := 0 < n ∧ addr.toNat < a + m ∧ a < addr.toNat + n
      ∃ kept, s.invalidate addr n = { s with windows := kept } ∧ kept.Sublist s.windows ∧
        ∀ e ∈ s.windows, e ∈ kept ↔ ¬ meets e.dirAddr.toNat 8 ∧ ¬ meets e.descAddr.toNat 16)

/-! ### Requests taken by the Request Path (spec/04, spec/06) -/

/-- R65 and R80: a write that is misaligned or a burst of one beat outside ACTIVE, and an aligned span write in
HALTED, is dropped: it leaves the queue and DROPPED is set, which makes STATUS pending if it was clear; nothing else
changes, but that a hold placed on the path takes effect. A read refused in the same cases is answered FAULT with a
byte of FFh for each byte it covers, and changes nothing else. R65, R66, R39, R76, R77 in ACTIVE: a misaligned request
or a burst of one beat faults with cause SHAPE, without backing and with DETAIL the window of its first byte inside
the span, or 0; an aligned span request that crosses the edge of the span faults with BOUNDARY, without a lookup; and
one found in the Window Cache faults as it is judged on that entry, which becomes most recently used. Each such
request leaves the queue; a read (it has a place in the order list) is answered FAULT and a write is dropped; a FAULT
record is handed to the ring, and the fault is reported to the latch. -/
def Obligations.RefusedRequestsAreAnsweredOrDropped : Prop :=
  (∀ (s : State) (r : Request) (rest : List Request), s.pathFree → s.up.intake = r :: rest → r.kind = .write →
      (r.misshapen = true ∧ s.cm.mode ≠ .active ∨ s.isSpanRequest r = true ∧ s.cm.mode = .halted) →
      exec .requestTaken s = .next
        { s with
          up := { s.up with intake := rest }
          cm := { s.cm with
            flags := { s.cm.flags with dropped := true }
            mirror := { s.cm.mirror with statusPending := s.cm.mirror.statusPending || !s.cm.flags.dropped } } }.settleHold) ∧
  (∀ (s : State) (r : Request) (rest : List Request) (id : Nat), s.pathFree → s.up.intake = r :: rest →
      r.kind = .read → r.readId = some id →
      (r.misshapen = true ∧ s.cm.mode ≠ .active ∨ s.isSpanRequest r = true ∧ s.cm.mode = .halted) →
      exec .requestTaken s = .next
        { s with
          up := { s.up with
            intake := rest
            reads := s.up.reads.map fun (e : ReadEntry) =>
              if e.id = id then { e with answer := some ⟨.fault, List.replicate r.shape.bytes 0xFF⟩ } else e } }.settleHold) ∧
  (∀ (s : State) (r : Request) (rest : List Request), s.pathFree → s.up.intake = r :: rest → s.cm.mode = .active →
      let a := r.addr.toNat
      let b := s.cm.config.spanBase.toNat
      let n := r.shape.bytes
      let spanEnd := b + 2 ^ 18 * 2 ^ s.cm.config.spanSize
      let meets := 0 < n ∧ a < spanEnd ∧ b < a + n
      let faulted (windows : List WindowEntry) (f : FaultInfo) : State :=
        let record : EventRecord := ⟨.fault, some f.cause, r.master, (Access.mk r.kind r.priv r.shape).byte, r.addr,
          f.backing, BitVec.ofNat 32 f.detail, .zero, .zero⟩
        let reads := match r.readId with
          | some id => s.up.reads.map fun (e : ReadEntry) =>
              if e.id = id then { e with answer := some ⟨.fault, List.replicate n 0xFF⟩ } else e
          | none => s.up.reads
        (({ s with up := { s.up with intake := rest, reads := reads }, windows := windows }.handRecord record
          ).reportFault record).settleHold
      (r.misshapen = true → exec .requestTaken s =
        .next (faulted s.windows ⟨.shape, if meets then (max a b - b) / 2048 else 0, none⟩)) ∧
      (r.misshapen = false → meets → a < b ∨ spanEnd < a + n → exec .requestTaken s =
        .next (faulted s.windows ⟨.boundary, (max a b - b) / 2048, none⟩)) ∧
      (∀ e f, r.misshapen = false → meets → b ≤ a → a + n ≤ spanEnd → e ∈ s.windows →
        (s.windows.map (·.window)).Nodup → e.window = (a - b) / 2048 →
        judge s.cm.config false e.dirRights e.desc r = some f →
        exec .requestTaken s = .next (faulted (insertWindow e s.windows) f)))

/-- R64, R101, R104, R119: an aligned request outside the span, or any aligned request in BYPASS, becomes a forwarded
access at its own address; only the queue and the path change. Where it overlaps no line that is not FREE, it is
offered downstream as the same access, at the same address. Where it overlaps one it is held while it settles there
(O60 says how), but in HALTED it is refused: a read is answered FAULT and a write dropped with DROPPED. R79: in
DRAINING an aligned span request stays at the head, and nothing changes. R36, R51: an aligned span request in ACTIVE
that crosses no span edge and misses in the Window Cache begins a walk at its directory entry; nothing else changes.
R50, R51, R116: one that hits there makes its entry most recently used and is judged on it (O12 says how a request
goes on that passes, O14 how one that does not, and O59 what becomes of it by KIND). -/
def Obligations.RequestsAreSortedByTheSpan : Prop :=
  (∀ (s : State) (r : Request) (rest : List Request), s.pathFree → s.up.intake = r :: rest → r.misshapen = false →
      s.isSpanRequest r = false →
      let n := r.shape.bytes
      let taken : UpstreamPort := { s.up with intake := rest }
      let held : State := { s with up := taken, path := some ⟨r, .forward r.addr false⟩ }
      (s.clearOf r.addr n → exec .requestTaken s = .next held ∧
        (∀ id, r.kind = .read → r.readId = some id →
          held.offer .path = some (.read r.addr r.shape, .forwardedRead id n)) ∧
        (r.kind = .write → held.offer .path = some
          (.write r.addr r.shape r.data, .forwardedWrite ⟨r.master, ⟨r.kind, r.priv, r.shape⟩, r.addr⟩ none))) ∧
      (s.cm.mode ≠ .halted → exec .requestTaken s = .next (held.settle (decide (r.kind = .write)) r.addr n)) ∧
      (s.cm.mode = .halted → 0 < n → ¬ s.clearOf r.addr n →
        (r.kind = .write → exec .requestTaken s = .next (State.settleHold { s with
          up := taken
          cm := { s.cm with
            flags := { s.cm.flags with dropped := true }
            mirror := { s.cm.mirror with statusPending := s.cm.mirror.statusPending || !s.cm.flags.dropped } } })) ∧
        (∀ id, r.kind = .read → r.readId = some id → exec .requestTaken s = .next (State.settleHold { s with
          up := { taken with reads := s.up.reads.map fun (e : ReadEntry) =>
            if e.id = id then { e with answer := some ⟨.fault, List.replicate n 0xFF⟩ } else e } })))) ∧
  (∀ (s : State) (r : Request) (rest : List Request), s.cm.recognised = [] → s.up.intake = r :: rest →
      s.isSpanRequest r = true → s.cm.mode = .draining → exec .requestTaken s = .next s) ∧
  (∀ (s : State) (r : Request) (rest : List Request), s.pathFree → s.up.intake = r :: rest → s.isSpanRequest r = true →
      s.cm.config.insideSpan r.addr r.shape.bytes = true → s.cm.mode = .active →
      let offset := r.addr.toNat - s.cm.config.spanBase.toNat
      (∀ e ∈ s.windows, e.window ≠ offset / 2048) →
      exec .requestTaken s = .next
        { s with
          up := { s.up with intake := rest }
          path := some ⟨r, .walking⟩
          walker := { Walker.idle with
            phase := .dirRead
            window := offset / 2048
            dirAddr := s.cm.config.dirBase + BitVec.ofNat 32 (8 * (offset / 2 ^ 18)) } }) ∧
  (∀ (s : State) (r : Request) (rest : List Request) (e : WindowEntry), s.pathFree → s.up.intake = r :: rest →
      s.isSpanRequest r = true → s.cm.config.insideSpan r.addr r.shape.bytes = true → s.cm.mode = .active →
      e ∈ s.windows → (s.windows.map (·.window)).Nodup →
      e.window = (r.addr.toNat - s.cm.config.spanBase.toNat) / 2048 →
      exec .requestTaken s = .next (State.judged r e { s with
        up := { s.up with intake := rest }
        windows := insertWindow e s.windows }))

/-- R51, R41, R70, R86, R96: a write of an ACCUMULATE window found in the cache with both indicators known, whose
counter has a CLEAN, DIRTY or WRITING line, is one operation applied at once: the record is what the Operation Unit
returns, a CLEAN line becomes DIRTY with its age timer started unless AGE_INTERVAL is 0, a DIRTY line's timer runs on,
a WRITING line gains REDIRTY; the line and the window's entry become most recently used; a fired watch hands its
THRESHOLD record to the ring. -/
def Obligations.AccumulateWritesAreAppliedAtOnce : Prop :=
  ∀ (s : State) (r : Request) (rest : List Request) (e : WindowEntry) (i : Fin 64) (kind : OpKind), s.pathFree →
    s.up.intake = r :: rest → s.isSpanRequest r = true → s.cm.config.insideSpan r.addr r.shape.bytes = true →
    s.cm.mode = .active → r.kind = .write → e ∈ s.windows → (s.windows.map (·.window)).Nodup →
    e.window = (r.addr.toNat - s.cm.config.spanBase.toNat) / 2048 → e.touchedKnown = true → e.changedKnown = true →
    e.desc.kind = .accumulate → accumulateOp e.desc.params.op = some kind →
    judge s.cm.config false e.dirRights e.desc r = none →
    let l := s.line i
    let offset := (r.addr.toNat - s.cm.config.spanBase.toNat) % 2048
    l.state ∈ [.clean, .dirty, .writing] → l.backing = e.desc.backing + BitVec.ofNat 32 (8 * (offset / 8)) →
    (∀ j, (s.line j).inUse → (s.line j).backing = l.backing → j = i) →
    let op : PendingOp := ⟨kind, operandOf e.desc.order e.desc.params.signed r.data, e.desc.params,
      ⟨r.master, ⟨.write, r.priv, r.shape⟩, r.addr⟩⟩
    let new := evaluate op l.record
    ∃ t, exec .requestTaken s = .next t ∧ t.path = none ∧ t.up = { s.up with intake := rest } ∧
      t.walker = s.walker ∧ t.down = s.down ∧ t.link = s.link ∧ t.pins = s.pins ∧
      t.windows = insertWindow e s.windows ∧
      t.line i = { l with
        record := new.record
        state := if l.state = .clean then .dirty else l.state
        redirty := l.redirty || decide (l.state = .writing)
        age := if l.state ≠ .clean then l.age else if s.acc.ageInterval = 0 then none else some s.acc.ageInterval } ∧
      (∀ j, j ≠ i → t.line j = s.line j) ∧ t.acc.order = s.acc.order.filter (· ≠ i) ++ [i] ∧
      t.acc.fillQueue = s.acc.fillQueue ∧ t.acc.writeQueue = s.acc.writeQueue ∧
      (new.fired = true → s.ring.state ≠ .inactive → s.ring.queue.length < 8 →
        t.ring = { s.ring with queue := s.ring.queue ++ [⟨.threshold, none, r.master,
          (Access.mk .write r.priv r.shape).byte, r.addr, some l.backing, 0, l.record, new.record⟩] }) ∧
      (new.fired = false → t.ring = s.ring)

/-- R68 to R75, R81: what a request becomes that has passed all its tests, by the KIND of its window. A DIRECT access
becomes a forwarded access at BACKING_BASE plus its offset, which is held while it settles (O60 says how) and is
offered downstream as the same access, its completion carrying that address. A write becomes one operation on the
counter at its slot: under ACCUMULATE the one OP names, under CLAMPED_VIEW a PRESET, under DRAIN a REARM, with its
data as the operand under ORDER and SIGNED. A read is handed to the counter at its slot: its presented bytes, the
clamped view, or the draining read. When the mode has become HALTED (or BYPASS after it, as log 17 deduces), a request
not yet handed to the cache, and in HALTED a DIRECT access over a line that is not FREE, is refused: a read is
answered FAULT and a write dropped with DROPPED. -/
def Obligations.RequestsAreExecutedByKind : Prop :=
  ∀ (s : State) (r : Request) (d : Descriptor),
    let offset := (r.addr.toNat - s.cm.config.spanBase.toNat) % 2048
    let backing := d.backing + BitVec.ofNat 32 offset
    let slot := d.backing + BitVec.ofNat 32 (8 * (offset / 8))
    let origin : Origin := ⟨r.master, ⟨r.kind, r.priv, r.shape⟩, r.addr⟩
    let op (kind : OpKind) : PendingOp := ⟨kind, operandOf d.order d.params.signed r.data, d.params, origin⟩
    let held : State := { s with path := some ⟨r, .forward backing true⟩ }
    let refused (t : State) : Prop :=
      (r.kind = .write → t = State.settleHold { s with
        path := none
        cm := { s.cm with
          flags := { s.cm.flags with dropped := true }
          mirror := { s.cm.mirror with statusPending := s.cm.mirror.statusPending || !s.cm.flags.dropped } } }) ∧
      (∀ id, r.kind = .read → r.readId = some id → t = State.settleHold { s with
        path := none
        up := { s.up with reads := s.up.reads.map fun (e : ReadEntry) =>
          if e.id = id then { e with answer := some ⟨.fault, List.replicate r.shape.bytes 0xFF⟩ } else e } })
    (d.kind = .direct →
      (s.clearOf backing r.shape.bytes → s.execute r d = held ∧
        (r.kind = .write → held.offer .path =
          some (.write backing r.shape r.data, .forwardedWrite origin (some backing))) ∧
        (∀ id, r.kind = .read → r.readId = some id → held.offer .path =
          some (.read backing r.shape, .forwardedRead id r.shape.bytes))) ∧
      (s.cm.mode ≠ .halted → s.execute r d = held.settle (decide (r.kind = .write)) backing r.shape.bytes) ∧
      (s.cm.mode = .halted → 0 < r.shape.bytes → ¬ s.clearOf backing r.shape.bytes → refused (s.execute r d))) ∧
    (s.cm.mode = .active ∨ s.cm.mode = .draining →
      (∀ kind, d.kind = .accumulate → r.kind = .write → accumulateOp d.params.op = some kind →
        s.execute r d = s.handOperation r (op kind) slot) ∧
      (d.kind = .clampedView → r.kind = .write → s.execute r d = s.handOperation r (op .preset) slot) ∧
      (d.kind = .drain → r.kind = .write → s.execute r d = s.handOperation r (op .rearm) slot) ∧
      (∀ size, r.kind = .read → r.shape = .single size →
        (d.kind = .accumulate → s.execute r d = s.serveRead r (.presented d.order (offset % 8) size) slot) ∧
        (d.kind = .clampedView → s.execute r d = s.serveRead r (.clamped d.order size) slot)) ∧
      (d.kind = .drain → r.kind = .read → s.execute r d = s.serveDrain r d.order slot)) ∧
    (d.kind ≠ .direct → s.cm.mode = .halted ∨ s.cm.mode = .bypass → refused (s.execute r d))

/-! ### Lines (spec/05) -/

/-- R84: allocation takes the lowest-numbered FREE line; with none FREE, the least recently used of the CLEAN and
DIRTY lines, taken if CLEAN and evicted if DIRTY; and waits if every line is FILLING or WRITING. R84, R86: an
operation for a counter with no line, where a line is FREE: the line becomes FILLING with the operation as its first
pending entry, most recently used, and its fill is requested; the request is finished. R86, R96, with R17, R18 and
R21: on a CLEAN, DIRTY or WRITING line an operation of any kind is applied at once: the record is what the Operation
Unit returns, a CLEAN line becomes DIRTY with its age timer started (unless AGE_INTERVAL is 0 or the bridge HALTED), a
DIRTY line's timer runs on, a WRITING line gains REDIRTY; the line becomes most recently used, a fired watch hands its
THRESHOLD record to the ring, and the request is finished. R86, R87: on a FILLING line an operation joins the tail of
the pending list while it holds fewer than 8; with 8 it is not handed over and the path goes on holding its request.
R84, R85: where allocation finds a DIRTY victim, its write-back starts with EVICT set, and where it finds none it
waits; either way the path goes on holding the operation. R85, R87: a fill or a write-back that completes has the
operation held handed over again, to the lines as that completion leaves them (O19, O20 and O38 say how), and what it
leaves is reported (R107). This is outside the drain, in which no span operation reaches the cache (R108); that the
write-back of a marked line starts before the retry is, after a fill, the model's choice (log 14). -/
def Obligations.OperationsFindTheirLine : Prop :=
  (∀ s : State,
      (∀ i, (s.line i).state = .free → (∀ j, j < i → (s.line j).state ≠ .free) → s.allocation = .take i) ∧
      ((∀ i, (s.line i).state ≠ .free) →
        (∀ older i newer, s.acc.order = older ++ i :: newer →
          (∀ j ∈ older, (s.line j).state = .filling ∨ (s.line j).state = .writing) →
          ((s.line i).state = .clean → s.allocation = .take i) ∧ ((s.line i).state = .dirty → s.allocation = .evict i)) ∧
        ((∀ i, (s.line i).state = .filling ∨ (s.line i).state = .writing) → s.allocation = .wait))) ∧
  (∀ (s : State) (r : Request) (op : PendingOp) (backing : Addr) (i : Fin 64),
      (∀ j, (s.line j).inUse → (s.line j).backing ≠ backing) → s.allocation = .take i →
      ∃ t : State, s.handOperation r op backing = t.finishPath ∧ t = { s with acc := t.acc } ∧
        t.line i = { Line.empty with state := .filling, backing := backing, pending := [op], cause := r.origin } ∧
        (∀ j, j ≠ i → t.line j = s.line j) ∧ t.acc.order = s.acc.order.filter (· ≠ i) ++ [i] ∧
        t.acc.fillQueue = s.acc.fillQueue ++ [i] ∧ t.acc.writeQueue = s.acc.writeQueue) ∧
  (∀ (s : State) (r : Request) (op : PendingOp) (i : Fin 64), (s.line i).state ∈ [.clean, .dirty, .writing] →
      (∀ j, (s.line j).inUse → (s.line j).backing = (s.line i).backing → j = i) →
      let l := s.line i
      let new := evaluate op l.record
      let reported : State := if new.fired then
          s.handRecord ⟨.threshold, none, op.origin.master, op.origin.access.byte, op.origin.addr, some l.backing, 0,
            l.record, new.record⟩
        else s
      ∃ t : State, s.handOperation r op l.backing = t.finishPath ∧ t = { reported with acc := t.acc } ∧
        t.line i = { l with
          record := new.record
          state := if l.state = .clean then .dirty else l.state
          redirty := l.redirty || decide (l.state = .writing)
          age := if l.state ≠ .clean then l.age
            else if s.acc.ageInterval = 0 ∨ s.cm.mode = .halted then none else some s.acc.ageInterval } ∧
        (∀ j, j ≠ i → t.line j = s.line j) ∧ t.acc.order = s.acc.order.filter (· ≠ i) ++ [i] ∧
        t.acc.fillQueue = s.acc.fillQueue ∧ t.acc.writeQueue = s.acc.writeQueue ∧
        t.acc.ageInterval = s.acc.ageInterval) ∧
  (∀ (s : State) (r : Request) (op : PendingOp) (i : Fin 64), (s.line i).state = .filling →
      (∀ j, (s.line j).inUse → (s.line j).backing = (s.line i).backing → j = i) →
      ((s.line i).pending.length < 8 →
        ∃ t : State, s.handOperation r op (s.line i).backing = t.finishPath ∧ t = { s with acc := t.acc } ∧
          t.line i = { s.line i with pending := (s.line i).pending ++ [op] } ∧ (∀ j, j ≠ i → t.line j = s.line j) ∧
          t.acc.order = s.acc.order ∧ t.acc.fillQueue = s.acc.fillQueue ∧ t.acc.writeQueue = s.acc.writeQueue) ∧
      ((s.line i).pending.length = 8 →
        s.handOperation r op (s.line i).backing =
          { s with path := some ⟨r, .operation op (s.line i).backing⟩ })) ∧
  (∀ (s : State) (r : Request) (op : PendingOp) (backing : Addr),
      (∀ j, (s.line j).inUse → (s.line j).backing ≠ backing) →
      let kept : State := { s with path := some ⟨r, .operation op backing⟩ }
      (∀ v, s.allocation = .evict v → s.handOperation r op backing = { kept with acc := { s.acc with
        lines := s.acc.lines.set v { s.line v with
          state := .writing, writeCopy := (s.line v).record, covers := (s.line v).flushMark, evict := true,
          redirty := false, age := none }
        writeQueue := s.acc.writeQueue ++ [v] } }) ∧
      (s.allocation = .wait → s.handOperation r op backing = kept)) ∧
  (∀ (s : State) (r : Request) (op : PendingOp) (backing : Addr) (i : Fin 64) (st : Status) (data : Payload),
      s.path = some ⟨r, .operation op backing⟩ → s.cm.leaving ≠ .draining →
      let bare : State := { s with path := none }
      let again (t : State) : State := (State.handOperation r op backing { t with path := s.path }).linesReported
      ((s.line i).state = .writing → s.completeWriteBack i .okay = again (bare.completeWriteBack i .okay)) ∧
      ((s.line i).state = .filling → s.completeFill i st data = again (bare.completeFill i st data)))

/-- R19, R100: a DRAIN read of a counter whose line is CLEAN, DIRTY or WRITING is answered with the record as it
stood, presented under ORDER; the record keeps HIT and ARM, VALUE becomes 0 and OVF is cleared; a CLEAN line becomes
DIRTY with its age timer started (unless AGE_INTERVAL is 0 or the bridge HALTED, R96), a DIRTY line's timer runs on, a
WRITING line gains REDIRTY, and the line becomes most recently used. Of a counter whose line is FILLING it waits on
the line; of one with no line a line is allocated for it with an empty pending list, its fill is requested, and the
read waits on it; where the allocation waits (R84, R85) the path goes on holding the read, which a fill or a
write-back that completes has handed over again, to the lines as that completion leaves them (O19, O20 and O38 say
how), and what it leaves is reported (R107); this is outside the drain, in which no span operation reaches the cache
(R108), and a marked line's write-back starts before it (after a fill the model's choice, log 14). R98, R99: an
ACCUMULATE or CLAMPED_VIEW read is answered from the record of a CLEAN, DIRTY or WRITING line, which is not changed
but becomes most recently used; on a FILLING line it waits; with no line it is offered as a READ of the 8 bytes. -/
def Obligations.CounterReadsTakeTheRecord : Prop :=
  (∀ (s : State) (r : Request) (order : Order) (i : Fin 64) (id : Nat),
      (s.line i).state ∈ [.clean, .dirty, .writing] →
      (∀ j, (s.line j).inUse → (s.line j).backing = (s.line i).backing → j = i) → r.readId = some id →
      let l := s.line i
      ∃ t : State, s.serveDrain r order l.backing = t.finishPath ∧ t = { s with acc := t.acc, up := t.up } ∧
        t.line i = { l with
          record := { l.record with value := 0, ovf := false }
          state := if l.state = .clean then .dirty else l.state
          redirty := l.redirty || decide (l.state = .writing)
          age := if l.state ≠ .clean then l.age
            else if s.acc.ageInterval = 0 ∨ s.cm.mode = .halted then none else some s.acc.ageInterval } ∧
        (∀ j, j ≠ i → t.line j = s.line j) ∧ t.acc.order = s.acc.order.filter (· ≠ i) ++ [i] ∧
        t.acc.fillQueue = s.acc.fillQueue ∧ t.acc.writeQueue = s.acc.writeQueue ∧
        t.acc.ageInterval = s.acc.ageInterval ∧
        t.up = { s.up with reads := s.up.reads.map fun (e : ReadEntry) =>
          if e.id = id then
            { e with answer := some ⟨.okay, if order = .big then l.record.bytes.reverse else l.record.bytes⟩ }
          else e }) ∧
  (∀ (s : State) (r : Request) (order : Order) (i : Fin 64), (s.line i).state = .filling →
      (∀ j, (s.line j).inUse → (s.line j).backing = (s.line i).backing → j = i) →
      s.serveDrain r order (s.line i).backing = { s with path := some ⟨r, .onLine i (.drain order)⟩ }) ∧
  (∀ (s : State) (r : Request) (order : Order) (backing : Addr),
      (∀ j, (s.line j).inUse → (s.line j).backing ≠ backing) →
      let kept : State := { s with path := some ⟨r, .drainRead backing order⟩ }
      (∀ i, s.allocation = .take i →
        ∃ c : AccCache, s.serveDrain r order backing = { s with path := some ⟨r, .onLine i (.drain order)⟩, acc := c } ∧
          c.line i = { Line.empty with state := .filling, backing := backing, cause := r.origin } ∧
          (∀ j, j ≠ i → c.line j = s.line j) ∧ c.order = s.acc.order.filter (· ≠ i) ++ [i] ∧
          c.fillQueue = s.acc.fillQueue ++ [i] ∧ c.writeQueue = s.acc.writeQueue) ∧
      (∀ v, s.allocation = .evict v → s.serveDrain r order backing = { kept with acc := { s.acc with
        lines := s.acc.lines.set v { s.line v with
          state := .writing, writeCopy := (s.line v).record, covers := (s.line v).flushMark, evict := true,
          redirty := false, age := none }
        writeQueue := s.acc.writeQueue ++ [v] } }) ∧
      (s.allocation = .wait → s.serveDrain r order backing = kept)) ∧
  (∀ (s : State) (r : Request) (order : Order) (backing : Addr) (i : Fin 64) (st : Status) (data : Payload),
      s.path = some ⟨r, .drainRead backing order⟩ → s.cm.leaving ≠ .draining →
      let bare : State := { s with path := none }
      let again (t : State) : State := (State.serveDrain r order backing { t with path := s.path }).linesReported
      ((s.line i).state = .writing → s.completeWriteBack i .okay = again (bare.completeWriteBack i .okay)) ∧
      ((s.line i).state = .filling → s.completeFill i st data = again (bare.completeFill i st data))) ∧
  (∀ (s : State) (r : Request) (view : View) (backing : Addr) (i : Fin 64) (id : Nat), r.readId = some id →
      ((s.line i).state ∈ [.clean, .dirty, .writing] → (s.line i).backing = backing →
        (∀ j, (s.line j).inUse → (s.line j).backing = backing → j = i) →
        s.serveRead r view backing = State.finishPath { s with
          acc := { s.acc with order := s.acc.order.filter (· ≠ i) ++ [i] }
          up := { s.up with reads := s.up.reads.map fun (e : ReadEntry) =>
            if e.id = id then { e with answer := some ⟨.okay, view.answer (s.line i).record⟩ } else e } }) ∧
      ((s.line i).state = .filling → (s.line i).backing = backing →
        (∀ j, (s.line j).inUse → (s.line j).backing = backing → j = i) →
        s.serveRead r view backing = { s with path := some ⟨r, .onLine i view⟩ }) ∧
      ((∀ j, (s.line j).inUse → (s.line j).backing ≠ backing) →
        s.serveRead r view backing = { s with path := some ⟨r, .counterRead backing view⟩ } ∧
        (s.serveRead r view backing).offer .path = some (.read backing (.single .b8), .counterRead id view)))

/-- R89, R106: a fill of a FILLING line that completes OKAY, outside a drain: the pending operations are applied in
list order to the record fetched, and the THRESHOLD record of each that fires the watch is handed over in that order;
the list is emptied. A read that waits on the line is then answered with its view of the record, a DRAIN read leaving
VALUE 0 and OVF clear, and its request is finished. The line is CLEAN, its mark cleared, if its record is as fetched
(the record it is left with is compared, the model's choice, log 29); otherwise it is DIRTY with its age timer
started, or, with its flush mark set, starts a covering write-back at once. R90: a fill of a FILLING line that
completes ERROR: the line is FREE, its operations are lost, and one FILL_LOST record, whose DETAIL is their number, is
handed to the ring; a read that waits on the line is answered FAULT, and its request is finished; no flag but OVERRUN
can change. R107: a FLUSH in progress is then DONE if no mark is left. A walk, a counter read or a read on another
line that the Request Path holds meanwhile goes on as it is, in the drain too; O17, O18 and O60 have the requests that
are tried again. -/
def Obligations.FillsApplyOrLoseThePendingList : Prop :=
  (∀ (s : State) (i : Fin 64) (data : Payload), (s.line i).state = .filling → s.cm.leaving ≠ .draining →
      let l := s.line i
      let fetched := Record.decode (data.setWidth 64)
      let apply (x : Record × List EventRecord) (op : PendingOp) : Record × List EventRecord :=
        let new := evaluate op x.1
        (new.record, if new.fired then
          x.2 ++ [⟨.threshold, none, op.origin.master, op.origin.access.byte, op.origin.addr, some l.backing, 0, x.1,
            new.record⟩] else x.2)
      let applied := l.pending.foldl apply (fetched, [])
      let reported := applied.2.foldl (fun u e => u.handRecord e) s
      let filled (left : Record) (c : AccCache) : Prop :=
        c.line i =
          (if left = fetched then
            { l with state := .clean, record := left, pending := [], age := none, flushMark := false }
          else if l.flushMark then
            { l with state := .writing, record := left, pending := [], age := none, writeCopy := left, covers := true,
                     evict := false, redirty := false }
          else
            { l with
              state := .dirty
              record := left
              pending := []
              age := if s.acc.ageInterval = 0 ∨ s.cm.mode = .halted then none else some s.acc.ageInterval }) ∧
        (∀ j, j ≠ i → c.line j = s.line j) ∧ c.fillQueue = s.acc.fillQueue ∧
        c.writeQueue = s.acc.writeQueue ++ (if left ≠ fetched ∧ l.flushMark = true then [i] else []) ∧
        c.ageInterval = s.acc.ageInterval
      (s.path = none →
        ∃ c : AccCache, s.completeFill i .okay data = State.linesReported { reported with acc := c } ∧
          filled applied.1 c ∧
          c.order = if l.pending = [] then s.acc.order else s.acc.order.filter (· ≠ i) ++ [i]) ∧
      (∀ r view id, s.path = some ⟨r, .onLine i view⟩ → r.readId = some id →
        let left : Record := match view with
          | .drain _ => { applied.1 with value := 0, ovf := false }
          | .presented _ _ _ | .clamped _ _ => applied.1
        let answer : List Byte := match view with
          | .drain order => if order = .big then applied.1.bytes.reverse else applied.1.bytes
          | .presented _ _ _ | .clamped _ _ => view.answer applied.1
        ∃ c : AccCache, filled left c ∧ c.order = s.acc.order.filter (· ≠ i) ++ [i] ∧
          s.completeFill i .okay data = State.linesReported (State.settleHold { reported with
            path := none
            acc := c
            up := { s.up with reads := s.up.reads.map fun (e : ReadEntry) =>
              if e.id = id then { e with answer := some ⟨.okay, answer⟩ } else e } }))) ∧
  (∀ (s : State) (i : Fin 64) (data : Payload), (s.line i).state = .filling → s.cm.leaving ≠ .draining →
      let l := s.line i
      let record : EventRecord := ⟨.fillLost, none, l.cause.master, l.cause.access.byte, l.cause.addr, some l.backing,
        BitVec.ofNat 32 l.pending.length, .zero, .zero⟩
      let freed : State := { s.handRecord record with acc := { s.acc with
        lines := s.acc.lines.set i Line.empty
        order := s.acc.order.filter (· ≠ i) } }
      (s.path = none → s.completeFill i .error data = freed.linesReported) ∧
      (∀ r view id, s.path = some ⟨r, .onLine i view⟩ → r.readId = some id →
        s.completeFill i .error data = State.linesReported (State.settleHold { freed with
          path := none
          up := { s.up with reads := s.up.reads.map fun (e : ReadEntry) =>
            if e.id = id then { e with answer := some ⟨.fault, List.replicate view.bytes 0xFF⟩ } else e } }))) ∧
  (∀ (s : State) (i : Fin 64) (st : Status) (data : Payload) (r : Request) (stage : Stage),
      s.path = some ⟨r, stage⟩ →
      (stage = .walking ∨ (∃ backing view, stage = .counterRead backing view) ∨
        ∃ j view, j ≠ i ∧ stage = .onLine j view) →
      let bare : State := { s with path := none }
      s.completeFill i st data = { bare.completeFill i st data with path := s.path })

/-- R91: what the start of a write-back does to its line: WRITING, WRITE_COPY a copy of RECORD, COVERS as FLUSH_MARK,
REDIRTY clear, the timer stopped, EVICT as its cause decides; the line joins the write-back engine's queue. R97: the
expiry of the running age timer of a DIRTY line starts a write-back with EVICT clear; a forwarded access held in
settling then judges its lines again, which is all it does to the request held. R101 to R103: the settling action on
one overlapped line, by its state: for a write a CLEAN line becomes FREE, a DIRTY one is written with EVICT set, and a
WRITING one gains EVICT; for a read a DIRTY line is written with EVICT clear; nothing else is done (O60 settles the
whole set). R93, R96, R85: a write-back that completes OKAY leaves its line DIRTY with REDIRTY set, its age timer
started afresh, and as most recently used if EVICT was set (log 28 deduces when); else FREE with EVICT set; else
CLEAN. In each case EVICT, REDIRTY and WRITE_COPY with COVERS are cleared (a cleared WRITE_COPY is the zero record,
log 21). R107: a FLUSH in progress is then DONE if no mark is left. The line carries no mark and no drain is in
progress (O38 has the marked line, O39 the drain). A walk, a counter read or a read on a line that the Request Path
holds meanwhile goes on as it is, whatever is in progress; O17, O18 and O60 have the requests that are tried again. -/
def Obligations.WriteBacksAreStartedAndSettled : Prop :=
  (∀ (s : State) (evict : Bool) (i : Fin 64),
      let l := s.line i
      s.startWriteBack evict i = { s with acc := { s.acc with
        lines := s.acc.lines.set i { l with
          state := .writing, writeCopy := l.record, covers := l.flushMark, evict := evict, redirty := false, age := none }
        writeQueue := s.acc.writeQueue ++ [i] } }) ∧
  (∀ (s : State) (i : Fin 64), s.current → (s.line i).state = .dirty → (s.line i).age.isSome = true →
      let l := s.line i
      let t := { s with acc := { s.acc with
        lines := s.acc.lines.set i { l with
          state := .writing, writeCopy := l.record, covers := l.flushMark, evict := false, redirty := false, age := none }
        writeQueue := s.acc.writeQueue ++ [i] } }
      exec (.ageTimerExpiry i) s = .next t.settlePath ∧ (s.path = none → t.settlePath = t) ∧
      (∀ r addr direct, s.path = some ⟨r, .forward addr direct⟩ →
        t.settlePath = t.settle (decide (r.kind = .write)) addr r.shape.bytes) ∧
      (∀ r stage, s.path = some ⟨r, stage⟩ → (∀ addr direct, stage ≠ .forward addr direct) → t.settlePath = t)) ∧
  (∀ (s : State) (i : Fin 64),
      let l := s.line i
      (l.state = .free ∨ l.state = .filling → ∀ write, State.settleLine write s i = s) ∧
      (l.state = .clean → State.settleLine false s i = s ∧ State.settleLine true s i = s.freeLine i) ∧
      (l.state = .dirty → ∀ write, State.settleLine write s i = s.startWriteBack write i) ∧
      (l.state = .writing → State.settleLine false s i = s ∧
        State.settleLine true s i = s.setLine i { l with evict := true })) ∧
  (∀ (s : State) (i : Fin 64), (s.line i).state = .writing → (s.line i).flushMark = false →
      s.path = none → s.cm.leaving ≠ .draining →
      let l := s.line i
      ∃ t : State, s.completeWriteBack i .okay = t.linesReported ∧ t = { s with acc := t.acc } ∧
        (∀ j, j ≠ i → t.line j = s.line j) ∧
        t.acc.writeQueue = s.acc.writeQueue ∧ t.acc.fillQueue = s.acc.fillQueue ∧
        (l.redirty = true →
          t.line i = { l with
            state := .dirty
            age := if s.acc.ageInterval = 0 ∨ s.cm.mode = .halted then none else some s.acc.ageInterval
            evict := false, redirty := false, writeCopy := .zero, covers := false } ∧
          t.acc.order = if l.evict then s.acc.order.filter (· ≠ i) ++ [i] else s.acc.order) ∧
        (l.redirty = false → l.evict = true → t.line i = Line.empty ∧ t.acc.order = s.acc.order.filter (· ≠ i)) ∧
        (l.redirty = false → l.evict = false → t.acc.order = s.acc.order ∧
          t.line i = { l with
            state := .clean, age := none, evict := false, redirty := false, writeCopy := .zero, covers := false })) ∧
  (∀ (s : State) (i : Fin 64) (r : Request) (stage : Stage), s.path = some ⟨r, stage⟩ →
      (stage = .walking ∨ (∃ backing view, stage = .counterRead backing view) ∨ ∃ j view, stage = .onLine j view) →
      let bare : State := { s with path := none }
      s.completeWriteBack i .okay = { bare.completeWriteBack i .okay with path := s.path })

/-- R101 to R104: settling treats every line that is not FREE whose 8 bytes share a byte with the access: for a write
a CLEAN line becomes FREE, a DIRTY one starts a write-back with EVICT set and a WRITING one gains EVICT; for a read a
DIRTY one starts a write-back with EVICT clear; the other lines are not touched. The write-backs are queued in
ascending order of BACKING. The held access is offered for issue exactly when every line it meets is settled for it:
CLEAN for a read, and for a write none is left. R104, R108: in every mode and at every step of the drain, a write-back
that completes OKAY and a fill that completes have the held access judge its lines again, as that completion leaves
them (O19, O20 and O38 say how, and O39 in the drain, which treats the line first, as log 26 deduces), and what it
leaves is reported: with no mark left a FLUSH in progress is DONE (R107), with every line FREE in the drain the ring
release is awaited (R149). -/
def Obligations.SettlingTreatsEveryLineTheAccessMeets : Prop :=
  ∀ (s : State) (r : Request) (addr : Addr) (direct : Bool), 0 < r.shape.bytes →
    let write := decide (r.kind = .write)
    let n := r.shape.bytes
    let meets (l : Line) : Prop :=
      l.inUse ∧ max addr.toNat l.backing.toNat < min (addr.toNat + n) (l.backing.toNat + 8)
    (∃ (started : List (Fin 64)) (u : State), s.settle write addr n = u ∧ u = { s with acc := u.acc } ∧
      started.Nodup ∧ (∀ i, i ∈ started ↔ meets (s.line i) ∧ (s.line i).state = .dirty) ∧
      started.Pairwise (fun i j => (s.line i).backing.toNat ≤ (s.line j).backing.toNat) ∧
      u.acc.writeQueue = s.acc.writeQueue ++ started ∧ u.acc.fillQueue = s.acc.fillQueue ∧
      u.acc.ageInterval = s.acc.ageInterval ∧
      (∀ i,
        let l := s.line i
        (¬ meets l → u.line i = l) ∧
        (meets l → u.line i =
          match l.state with
          | .dirty => { l with state := .writing, writeCopy := l.record, covers := l.flushMark, evict := write,
                               redirty := false, age := none }
          | .clean => if write then Line.empty else l
          | .writing => if write then { l with evict := true } else l
          | .free | .filling => l)) ∧
      (∀ i, i ∈ u.acc.order ↔ i ∈ s.acc.order ∧ ¬ (write = true ∧ meets (s.line i) ∧ (s.line i).state = .clean)) ∧
      u.acc.order.Sublist s.acc.order) ∧
    (s.path = some ⟨r, .forward addr direct⟩ →
      ((∀ i, meets (s.line i) → write = false ∧ (s.line i).state = .clean) ↔ s.offer .path ≠ none) ∧
      (∀ i,
        let bare : State := { s with path := none }
        let again (t : State) : State := ({ t with path := s.path }.settle write addr n).linesReported
        (s.cm.leaving ≠ .draining → s.afterLine i = (s.settle write addr n).linesReported) ∧
        ((s.line i).state = .writing → s.completeWriteBack i .okay = again (bare.completeWriteBack i .okay)) ∧
        ((s.line i).state = .filling → ∀ st data,
          s.completeFill i st data = again (bare.completeFill i st data))))

/-- R94, R109, R147, R148, R161: a write-back that completes ERROR in ACTIVE or DRAINING makes the mode HALTED with
cause WRITEBACK_ERROR and sets FATAL; the line keeps its record, DIRTY, with EVICT, REDIRTY and WRITE_COPY cleared (a
cleared WRITE_COPY is the zero record, log 21); a HALT record with it is handed to the ring; the Window Cache is
emptied; every timer stops and every mark is cleared; a write-back not yet issued is withdrawn and its line is DIRTY
again; no fill or write-back waits at the engines; the hold DRAIN_START in force is released and one placed is
withdrawn. R95: one that completes ERROR in HALTED leaves its line so too and hands its HALT record to the ring; the
mode and the fatal cause stay. R81, R104, R109: of the request the Request Path holds, an operation or a DRAIN read
not yet handed over and a forwarded access over a line that is not FREE are refused, a read answered FAULT and a write
dropped with DROPPED; a read on a line whose fill is withdrawn is answered FAULT; a walk, a locked update, a counter
read without a line, a forwarded access over no line and a read whose fill is in flight go on; that a locked update
has begun, and goes on, once its LOCKED_READ is offered, granted or not, is log 15's deduction, and that a counter
read still waiting for its grant goes on is log 16's. R107, R148, R152: a FLUSH or DEACTIVATE in progress ends with
ACK FAILED and a forced bypass without an ACK; an ACTIVATE or RING_RESTART goes on. -/
def Obligations.AFailedWriteBackHalts : Prop :=
  (∀ (s : State) (i : Fin 64), (s.line i).state = .writing →
    s.cm.mode = .active ∨ s.cm.mode = .draining →
    let l := s.line i
    let record : EventRecord := ⟨.halt, none, 0, 0, 0, some l.backing, 0, .zero, l.record⟩
    ∃ t : State, s.completeWriteBack i .error = t ∧ t.cm.mode = .halted ∧ t.cm.fatalCause = .writebackError ∧
      t.cm.flags.fatal = true ∧ t.cm.mirror.modePending = true ∧ t.windows = [] ∧ t.cm.leaving = .stay ∧
      t.line i = { l with
        state := .dirty, age := none, flushMark := false, evict := false, redirty := false, writeCopy := .zero,
        covers := false } ∧
      t.cm.hold ≠ some .drainStart ∧ t.cm.placed ≠ some .drainStart ∧
      ((∀ h, s.cm.hold = some h ∨ s.cm.placed = some h → h = .drainStart) →
        t.cm.hold = none ∧ t.cm.placed = none) ∧
      (∀ h, s.cm.hold = some h → h ≠ .drainStart → t.cm.hold = some h) ∧
      (∀ j, (t.line j).age = none ∧ (t.line j).flushMark = false ∧ (t.line j).record = (s.line j).record ∧
        (t.line j).pending = (s.line j).pending) ∧
      t.acc.fillQueue = [] ∧ t.acc.writeQueue = [] ∧
      t.ring = (s.handRecord record).ring ∧ t.down = s.down ∧ t.walker = s.walker ∧
      (∀ j, j ≠ i →
        ((s.line j).state = .writing → j ∈ s.acc.writeQueue →
          (t.line j).state = .dirty ∧ (t.line j).evict = false ∧ (t.line j).redirty = false ∧
            (t.line j).writeCopy = .zero) ∧
        ((s.line j).state ≠ .writing ∨ j ∉ s.acc.writeQueue → (t.line j).state = (s.line j).state)) ∧
      (∀ r stage, s.path = some ⟨r, stage⟩ →
        let overLine (addr : Addr) : Prop := ∃ j, (s.line j).inUse ∧
          max addr.toNat (s.line j).backing.toNat < min (addr.toNat + r.shape.bytes) ((s.line j).backing.toNat + 8)
        let refused := (∃ op backing, stage = .operation op backing) ∨ (∃ backing order, stage = .drainRead backing order) ∨
          (∃ addr direct, stage = .forward addr direct ∧ 0 < r.shape.bytes ∧ overLine addr)
        let withdrawn := ∃ j view, stage = .onLine j view ∧ j ∈ s.acc.fillQueue
        (refused ∨ withdrawn → t.path = none) ∧
        (∀ id, refused ∧ r.kind = .read ∨ withdrawn → r.readId = some id →
          t.up = { s.up with reads := s.up.reads.map fun (e : ReadEntry) =>
            if e.id = id then { e with answer := some ⟨.fault, List.replicate r.shape.bytes 0xFF⟩ } else e }) ∧
        (refused ∧ r.kind = .write → t.up = s.up ∧ t.cm.flags.dropped = true) ∧
        (¬ (refused ∧ r.kind = .write) → t.cm.flags.dropped = s.cm.flags.dropped) ∧
        (¬ refused → ¬ withdrawn → t.path = s.path ∧ t.up = s.up)) ∧
      (∀ c tag, s.cm.inProgress = some (.block c tag) → c = .flush ∨ c = .deactivate →
        t.cm.inProgress = none ∧ t.cm.mirror.lastAck = some ⟨c.code, tag, some .failed, 0⟩ ∧
        (s.cm.mirror.acks.length < 4 → t.cm.mirror.acks = s.cm.mirror.acks ++ [⟨c.code, tag, some .failed, 0⟩])) ∧
      (s.cm.inProgress = some .link →
        t.cm.inProgress = none ∧ t.cm.mirror.lastAck = s.cm.mirror.lastAck ∧ t.cm.mirror.acks = s.cm.mirror.acks) ∧
      (∀ c tag, s.cm.inProgress = some (.block c tag) → c = .activate ∨ c = .ringRestart →
        t.cm.inProgress = some (.block c tag) ∧ t.cm.mirror.acks = s.cm.mirror.acks)) ∧
  (∀ (s : State) (i : Fin 64), (s.line i).state = .writing → s.cm.mode = .halted →
    let l := s.line i
    let reported := s.handRecord ⟨.halt, none, 0, 0, 0, some l.backing, 0, .zero, l.record⟩
    s.completeWriteBack i .error = { reported with acc := { s.acc with lines := s.acc.lines.set i { l with
      state := .dirty, age := none, evict := false, redirty := false, writeCopy := .zero, covers := false } } } ∧
    reported.cm.mode = .halted ∧ reported.cm.fatalCause = s.cm.fatalCause)

/-! ### The ports (spec/06) -/

/-- R112, R113, R114: while the accept line is high a request joins the tail of the intake queue, and a read the tail
of the order list; while it is low nothing changes, and the master presents the request again (log 1). R114, R118: the
answer of the head entry is taken only when it is ready; the soft restart ends with the last entry. -/
def Obligations.TheUpstreamPortKeepsOrder : Prop :=
  (∀ (s : State) (b : BusRequest), b.wf = true →
      let high := s.running ∧ s.up.restarting = false ∧ s.up.intake.length < 16 ∧ s.up.reads.length < 16
      (high → b.kind = .write → exec (.upstreamRequest b) s = .next { s with up := { s.up with
        intake := s.up.intake ++ [⟨.write, b.addr, b.shape, laneBytes b.shape.bytes b.data, b.master, b.priv, none⟩] } }) ∧
      (high → b.kind = .read → exec (.upstreamRequest b) s = .next { s with up := { s.up with
        intake := s.up.intake ++ [⟨.read, b.addr, b.shape, [], b.master, b.priv, some s.up.nextRead⟩]
        reads := s.up.reads ++ [⟨s.up.nextRead, b.master, b.shape.bytes, none⟩]
        nextRead := s.up.nextRead + 1 } }) ∧
      (¬ high → exec (.upstreamRequest b) s = .next s)) ∧
  (∀ (s : State), s.running →
      (∀ e rest, s.up.reads = e :: rest → e.answer ≠ none → exec .readAnswerTaken s = .next { s with up := { s.up with
        reads := rest, restarting := s.up.restarting && !rest.isEmpty } }) ∧
      (∀ e rest, s.up.reads = e :: rest → e.answer = none → exec .readAnswerTaken s = .next s) ∧
      (s.up.reads = [] → exec .readAnswerTaken s = .next s))

/-- R126, R128, R123: with a slot FREE, the arbiter grants the first ready requester in the cycle after the one it
granted last, and only the Request Path while the lock is held: its request goes WAITING into the lowest-numbered FREE
slot as the youngest in issue order. What the grant changes at the requester: the oldest line leaves the write-back or
the fill engine's queue (R88, R92); a forwarded access or counter read finishes its request (R116); the request of the
walker and of the ring writer is in flight and no longer offered (R35, R134, R135), and a LOCKED_READ takes the lock
(R126); the configuration read is in flight (R153, R158). The mirror's own change is O43's. R128: with no slot FREE,
or no requester ready, nothing is granted. R92: the write-back engine offers the WRITE of the 8 bytes of WRITE_COPY at
the BACKING of the oldest line of its queue, and R88: the fill engine the READ of 8 bytes at the BACKING of the oldest
of its own; with an empty queue neither offers anything. -/
def Obligations.TheArbiterGrantsInItsCycle : Prop :=
  (∀ (s : State) (i : Fin 8) (who : Requester) (before after : List Requester) (q : MemRequest) (p : Purpose),
      s.current →
      (s.down.slot i).state = .free → (∀ j, j < i → (s.down.slot j).state ≠ .free) →
      (if s.down.lock = none then s.down.lastGranted.cycle else [.path]) = before ++ who :: after →
      (∀ w ∈ before, s.offer w = none) → s.offer who = some (q, p) →
      ∃ t, exec .arbiterGrant s = .next t ∧ (t.down.slot i).state = .waiting q p ∧
        (∀ j, (t.down.slot j).owes = (s.down.slot j).owes) ∧ (∀ j, j ≠ i → t.down.slot j = s.down.slot j) ∧
        t.down.issueOrder = s.down.issueOrder ++ [i] ∧ t.down.lastGranted = who ∧
        t.up = s.up ∧ t.acc.lines = s.acc.lines ∧ t.acc.order = s.acc.order ∧ t.link = s.link ∧ t.pins = s.pins ∧
        t.ring.queue = s.ring.queue ∧ t.cm.mode = s.cm.mode ∧ t.cm.flags = s.cm.flags ∧
        t.acc.writeQueue = (if who = .writeBack then s.acc.writeQueue.tail else s.acc.writeQueue) ∧
        t.acc.fillQueue = (if who = .fill then s.acc.fillQueue.tail else s.acc.fillQueue) ∧
        t.ring = (if who = .ring then { s.ring with issued := true } else s.ring) ∧
        t.walker = (if p ∈ [.dirRead, .descRead, .lockedRead, .unlockingWrite, .release] then
          { s.walker with issued := true } else s.walker) ∧
        t.down.lock = (if p = .lockedRead then some s.walker.descAddr else s.down.lock) ∧
        (p = .configRead → t.cm.configRead = .inFlight false) ∧
        t.path = (match p with
          | .forwardedRead _ _ | .forwardedWrite _ _ | .counterRead _ _ => none
          | .dirRead | .descRead | .lockedRead | .unlockingWrite | .release | .fill _ | .writeBack _ | .configRead
          | .ringRecord | .ringProduced | .mirror => s.path)) ∧
  (∀ (s : State), s.cm.recognised = [] →
      (∀ i, (s.down.slot i).state ≠ .free) ∨ (∀ w ∈ s.down.candidates, s.offer w = none) →
      exec .arbiterGrant s = .next s) ∧
  (∀ (s : State),
      (∀ i rest, s.acc.writeQueue = i :: rest → s.offer .writeBack = some
        (.write (s.line i).backing (.single .b8) (s.line i).writeCopy.bytes, .writeBack i)) ∧
      (∀ i rest, s.acc.fillQueue = i :: rest →
        s.offer .fill = some (.read (s.line i).backing (.single .b8), .fill i)) ∧
      (s.acc.writeQueue = [] → s.offer .writeBack = none) ∧ (s.acc.fillQueue = [] → s.offer .fill = none))

/-- R57, R58, R116, R121, R145: the grant of a settled forwarded write finishes its request and shows the write, at
its landing address, to the Window Cache and to the Control Monitor; nothing else of the bridge above the port
changes, but that a hold placed on the path takes effect. R121, R145: each word it delivers is taken before any step
that could tell: a word's own row, and every command that reads or changes what a word changes or reads, does what it
does once the word ahead of it has been taken by its row, and that row leaves the words behind it. (That a word waits
for its row at all is the model's choice, log 3.) -/
def Obligations.ForwardedWritesAreObservedAtIssue : Prop :=
  (∀ (s : State) (i : Fin 8) (r : Request) (addr : Addr) (direct : Bool), s.current →
    s.path = some ⟨r, .forward addr direct⟩ → r.kind = .write → s.grantee = some .path →
    s.down.freeSlot = some i →
    let q := MemRequest.write addr r.shape r.data
    let p := Purpose.forwardedWrite ⟨r.master, ⟨r.kind, r.priv, r.shape⟩, r.addr⟩ (if direct then some addr else none)
    exec .arbiterGrant s = .next
      { s with
        path := none
        windows := (s.invalidate addr r.shape.bytes).windows
        down := { s.down with
          slots := s.down.slots.set i { s.down.slot i with state := .waiting q p }
          issueOrder := s.down.issueOrder ++ [i]
          lastGranted := .path }
        cm := { s.cm with recognised := controlWords s.cm.cbBase addr r.shape r.data } }.settleHold) ∧
  (∀ (s : State) (word : ControlWord) (rest : List ControlWord), s.running → s.cm.recognised = word :: rest →
    ∃ u, exec word.instr s = .next u ∧ u.cm.recognised = rest ∧
      ∀ c, meetsWords c = true ∨ takesItsWord c = true ∧ c ≠ word.instr → exec c s = exec c u)

/-- R145: the exact-cover rule. A single write of 8 bytes at CB_BASE + 40h delivers REQUEST and at CB_BASE + 48h
CONSUMED; a single write of another size delivers nothing; a burst delivers what its beats deliver, in beat order. -/
def Obligations.WordsAreRecognisedByExactCover : Prop :=
  ∀ (cb addr : Addr) (data : List Byte),
    let at_ (a : Nat) (bytes : List Byte) : List ControlWord :=
      if a = cb.toNat + 0x40 then [.request (bytes.getD 0 0) (bytes.getD 1 0)]
      else if a = cb.toNat + 0x48 then [.consumed (BitVec.ofNat 16 ((bytes.getD 0 0).toNat + 256 * (bytes.getD 1 0).toNat))]
      else []
    (2 ≤ data.length → controlWords cb addr (.single .b8) data = at_ addr.toNat data) ∧
    (∀ size, size ≠ .b8 → controlWords cb addr (.single size) data = []) ∧
    (∀ beats, data.length = 8 * beats → controlWords cb addr (.burst beats) data =
      (List.range beats).flatMap fun i => at_ (addr.toNat + 8 * i) (data.drop (8 * i)))

/-- R123, R124: a response to a slot that owes a late one is that one, and is discarded; a second response to a HELD
slot, and a response to a FREE one, are discarded; a response to a STALE slot frees it; a response to a WAITING slot
that is not the oldest makes it HELD. R124: the end of a STALE period frees the slot, which then owes the late
response. -/
def Obligations.ResponsesThatCompleteNothing : Prop :=
  (∀ (s : State) (i : Fin 8) (st : Status) (data : Payload), s.cm.recognised = [] →
      let x := s.down.slot i
      let put (y : Slot) : State := { s with down := { s.down with slots := s.down.slots.set i y } }
      (x.owes = true → exec (.downstreamResponse i st data) s = .next (put ⟨x.state, false⟩)) ∧
      (x.owes = false → x.state = .free → exec (.downstreamResponse i st data) s = .next s) ∧
      (∀ q p st' data', x.owes = false → x.state = .held q p st' data' →
        exec (.downstreamResponse i st data) s = .next s) ∧
      (∀ counting, x.owes = false → x.state = .stale counting →
        exec (.downstreamResponse i st data) s = .next (put ⟨.free, false⟩)) ∧
      (∀ q p, x.owes = false → x.state = .waiting q p → s.down.issueOrder.head? ≠ some i →
        exec (.downstreamResponse i st data) s = .next (put ⟨.held q p st data, false⟩))) ∧
  (∀ (s : State) (i : Fin 8), (s.down.slot i).state = .stale true →
      exec (.stalePeriodExpiry i) s = .next { s with down := { s.down with slots := s.down.slots.set i ⟨.free, true⟩ } })

/-- R123, R125: the response to the oldest WAITING slot frees it and is delivered to its requester; then each HELD
slot that has become the oldest completes in its turn with the response it holds, until the oldest is WAITING or none
is left. R124: the expiry of the oldest WAITING slot's timer completes its request ERROR and makes the slot STALE; the
HELD slots behind it complete in the same way. R115, R119, R120: a forwarded read that completes OKAY is answered with
the bytes returned, and ERROR with FFh for each byte; a forwarded write that completes ERROR hands one WRITE_ERROR
record to the ring, with backing for a DIRECT write alone, and OKAY changes nothing. R99: a counter read without a
line that completes OKAY is answered with its view of the 8 bytes as a record, and ERROR with FFh for each byte of the
read. -/
def Obligations.TheOldestRequestCompletes : Prop :=
  (∀ (s : State) (i : Fin 8) (chain rest : List (Fin 8)) (q : MemRequest) (p : Purpose), s.cm.recognised = [] →
      (s.down.slot i).state = .waiting q p → s.down.issueOrder = i :: (chain ++ rest) → s.down.issueOrder.Nodup →
      (∀ j ∈ chain, ∃ q' p' st data, (s.down.slot j).state = .held q' p' st data) →
      (∀ j ∈ rest.head?, (s.down.slot j).state.isWaiting = true) →
      let left (x : Slot) : State :=
        { s with down := { s.down with slots := s.down.slots.set i x, issueOrder := chain ++ rest } }
      let next (u : State) (j : Fin 8) : State :=
        match (s.down.slot j).state with
        | .held _ p' st data => State.complete p' st data { u with down := { u.down with
            slots := u.down.slots.set j { s.down.slot j with state := .free }
            issueOrder := u.down.issueOrder.tail } }
        | .free | .waiting _ _ | .stale _ => u
      ((s.down.slot i).owes = false → ∀ st data, exec (.downstreamResponse i st data) s =
        .next (chain.foldl next ((left ⟨.free, false⟩).complete p st data))) ∧
      (s.running → exec (.responseTimerExpiry i) s =
        .next (chain.foldl next ((left { s.down.slot i with state := .stale true }).complete p .error 0)))) ∧
  (∀ (s : State) (id n : Nat) (o : Origin) (backing : Option Addr) (view : View) (data : Payload),
      let answered (a : Answer) : State := { s with up := { s.up with
        reads := s.up.reads.map fun (e : ReadEntry) => if e.id = id then { e with answer := some a } else e } }
      s.complete (.forwardedRead id n) .okay data = answered ⟨.okay, laneBytes n data⟩ ∧
      s.complete (.forwardedRead id n) .error data = answered ⟨.fault, List.replicate n 0xFF⟩ ∧
      s.complete (.forwardedWrite o backing) .okay data = s ∧
      s.complete (.forwardedWrite o backing) .error data = s.handRecord
        ⟨.writeError, none, o.master, o.access.byte, o.addr, backing, 0, .zero, .zero⟩ ∧
      s.complete (.counterRead id view) .okay data =
        answered ⟨.okay, view.answer (Record.decode (data.setWidth 64))⟩ ∧
      s.complete (.counterRead id view) .error data = answered ⟨.fault, List.replicate view.bytes 0xFF⟩)

/-! ### The event ring (spec/07) -/

/-- R130: a record handed over is dropped without a flag by an INACTIVE ring, joins the queue's tail while it holds
fewer than 8, and is otherwise dropped with OVERRUN. R133: the head record, with the phase IDLE and no restart
pending: into an ACTIVE ring that is not full it becomes the record in hand in phase RECORD; a full ring drops it with
OVERRUN, and a BROKEN ring without a flag, and the writer then acts at once on the next in the same way, so that
either ring drops every record the queue holds. -/
def Obligations.RecordsAreQueuedAndTaken : Prop :=
  (∀ (s : State) (e : EventRecord),
      (s.ring.state = .inactive → s.handRecord e = s) ∧
      (s.ring.state ≠ .inactive → s.ring.queue.length < 8 →
        s.handRecord e = { s with ring := { s.ring with queue := s.ring.queue ++ [e] } }) ∧
      (s.ring.state ≠ .inactive → 8 ≤ s.ring.queue.length →
        s.handRecord e = { s with cm := { s.cm with
          flags := { s.cm.flags with overrun := true }
          mirror := { s.cm.mirror with statusPending := s.cm.mirror.statusPending || !s.cm.flags.overrun } } })) ∧
  (∀ (s : State) (e : EventRecord) (rest : List EventRecord), s.current → s.ring.queue = e :: rest →
      s.ring.phase = .idle → s.ring.restart = none →
      let full := (s.ring.produced - s.ring.consumed).toNat = 2 ^ s.ring.size
      (s.ring.state = .active → ¬ full → exec .ringTakeRecord s = .next { s with ring := { s.ring with
        queue := rest, phase := .record, issued := false, inHand := some e } }) ∧
      (s.ring.state = .active → full → exec .ringTakeRecord s = .next
        { s with
          ring := { s.ring with queue := [] }
          cm := { s.cm with
            flags := { s.cm.flags with overrun := true }
            mirror := { s.cm.mirror with statusPending := s.cm.mirror.statusPending || !s.cm.flags.overrun } } }) ∧
      (s.ring.state = .broken → exec .ringTakeRecord s = .next { s with ring := { s.ring with queue := [] } }))

/-- R132, R134, R135, R136: the record write is offered at RING_BASE + 32 × (PRODUCED mod 2^n), and its OKAY moves the
phase to INDEX; the PRODUCED word is then offered at CB_BASE + 98h with PRODUCED + 1, and its OKAY advances PRODUCED
and returns the phase to IDLE; an ERROR of either breaks the ring: BROKEN, the record dropped, PRODUCED kept,
RING_BROKEN set. -/
def Obligations.RecordsAreWrittenThenAnnounced : Prop :=
  ∀ (s : State) (e : EventRecord) (data : Payload), s.ring.inHand = some e → s.ring.zeroWrite = none →
    let broken : State := { s with
      ring := { s.ring with state := .broken, inHand := none, phase := .idle, issued := false }
      cm := { s.cm with
        flags := { s.cm.flags with ringBroken := true }
        mirror := { s.cm.mirror with statusPending := s.cm.mirror.statusPending || !s.cm.flags.ringBroken } } }
    (s.ring.phase = .record → s.ring.issued = false → s.offer .ring = some
      (.write (s.ring.base + BitVec.ofNat 32 (32 * (s.ring.produced.toNat % 2 ^ s.ring.size))) (.burst 4) e.bytes,
        .ringRecord)) ∧
    (s.ring.phase = .index → s.ring.issued = false → s.offer .ring = some
      (.write (s.cm.cbBase + 0x98) (.single .b8) (leBytes 8 (s.ring.produced + 1).toNat), .ringProduced)) ∧
    (s.ring.phase = .record → s.ring.issued = true →
      s.complete .ringRecord .okay data = { s with ring := { s.ring with phase := .index, issued := false } } ∧
      s.complete .ringRecord .error data = broken) ∧
    (s.ring.phase = .index → s.ring.issued = true →
      s.complete .ringProduced .okay data = { s with ring := { s.ring with
        produced := s.ring.produced + 1, inHand := none, phase := .idle, issued := false } } ∧
      s.complete .ringProduced .error data = broken)

/-- R137: a CONSUMED value from CONSUMED up to PRODUCED is taken; any other is ignored, with INDEX_ERROR unless the
ring is INACTIVE. -/
def Obligations.ConsumedIsJudgedAgainstTheRing : Prop :=
  ∀ (s : State) (index : BitVec 16), s.takesWord (.consumed index) →
    let t := s.wordTaken
    let inRange := (index - s.ring.consumed).toNat ≤ (s.ring.produced - s.ring.consumed).toNat
    (inRange → exec (.consumedWrite index) s = .next { t with ring := { s.ring with consumed := index } }) ∧
    (¬ inRange → s.ring.state = .inactive → exec (.consumedWrite index) s = .next t) ∧
    (¬ inRange → s.ring.state ≠ .inactive → exec (.consumedWrite index) s = .next { t with cm := { t.cm with
      flags := { s.cm.flags with indexError := true }
      mirror := { s.cm.mirror with statusPending := s.cm.mirror.statusPending || !s.cm.flags.indexError } } })

/-- R139: a pending restart, with the phase IDLE: the new base and size, both indices 0, the ring ACTIVE, RING_BROKEN
and OVERRUN clear, and the PRODUCED write of 0 offered; the queue and RING_ATTN_ENABLE are kept. -/
def Obligations.ARestartIsCarriedOut : Prop :=
  ∀ (s : State) (base : Addr) (size : Nat), s.current → s.ring.restart = some (base, size) → s.ring.phase = .idle →
    ∃ t, exec .ringRestartCarryOut s = .next t ∧
      t.ring = { s.ring with
        base := base, size := size, produced := 0, consumed := 0, state := .active, restart := none, phase := .index,
        issued := false, inHand := none, zeroWrite := some .restart } ∧
      t.cm = { s.cm with
        flags := { s.cm.flags with ringBroken := false, overrun := false }
        mirror := { s.cm.mirror with
          statusPending := s.cm.mirror.statusPending || s.cm.flags.ringBroken || s.cm.flags.overrun } } ∧
      t = { s with ring := t.ring, cm := t.cm } ∧
      t.offer .ring = some (.write (s.cm.cbBase + 0x98) (.single .b8) [0, 0, 0, 0, 0, 0, 0, 0], .ringProduced)

/-- R140, R149 step 6, R150 steps 4 and 5: the awaited release, with no restart pending, the queue empty and the phase
IDLE: the ring is INACTIVE with RING_ATTN_ENABLE 0 and its indices kept; the mode is BYPASS, the fatal cause NONE,
FATAL clear, and the request in progress ends, a DEACTIVATE with ACK DONE. -/
def Obligations.TheReleaseEndsInBypass : Prop :=
  ∀ (s : State), s.current → s.cm.leaving = .releasing → s.ring.restart = none → s.ring.queue = [] →
    s.ring.phase = .idle →
    ∃ t, exec .ringReleased s = .next t ∧ t.ring = { s.ring with state := .inactive, attnEnable := false } ∧
      t = { s with ring := t.ring, cm := t.cm } ∧ t.cm.mode = .bypass ∧ t.cm.fatalCause = .noCause ∧
      t.cm.flags.fatal = false ∧ t.cm.leaving = .stay ∧ t.cm.cbBase = s.cm.cbBase ∧ t.cm.latch = s.cm.latch ∧
      t.cm.hold = s.cm.hold ∧ t.cm.configCode = s.cm.configCode ∧
      (∀ tag, s.cm.inProgress = some (.block .deactivate tag) → t.cm.inProgress = none ∧
        t.cm.mirror.lastAck = some ⟨2, tag, some .done, 0⟩ ∧
        (s.cm.mirror.acks.length < 4 → t.cm.mirror.acks = s.cm.mirror.acks ++ [⟨2, tag, some .done, 0⟩])) ∧
      (s.cm.inProgress = some .link → t.cm.inProgress = none ∧ t.cm.mirror.acks = s.cm.mirror.acks)

/-- R142: ATTN is asserted exactly while RSTn is not, and RING_ATTN_ENABLE is set with PRODUCED different from
CONSUMED or one of the eight error flags is set. -/
def Obligations.AttentionFollowsItsTerms : Prop :=
  ∀ (s : State), s.attn = true ↔ s.running ∧
    (s.ring.attnEnable = true ∧ s.ring.produced ≠ s.ring.consumed ∨
      true ∈ [s.cm.flags.overrun, s.cm.flags.ringBroken, s.cm.flags.indexError, s.cm.flags.dataLost,
        s.cm.flags.dropped, s.cm.flags.configError, s.cm.flags.mirrorFault, s.cm.flags.fatal])


/-! ### The Control Monitor (spec/08) -/

/-- R145, R151: the word NONE has no effect; a code above 6 is refused with REFUSED_COMMAND; a known command is
refused with REFUSED_BUSY while a request is in progress, and with REFUSED_MODE in a mode the table refuses it in.
The ACK carries the code as written, the new tag and detail 0; the refusal changes nothing else. While RSTn is
asserted no word is taken (R179). Which of the words that wait is next is the model's own (log 3; O24 has a word
behind another). -/
def Obligations.RequestsAreRefusedInOrder : Prop :=
  ∀ (s : State) (c : Command) (code tag : Byte),
    let taken := s.wordTaken
    (s.takesWord (.request 0 tag) → exec (.requestNone tag) s = .next taken) ∧
    (s.takesWord (.request code tag) → 7 ≤ code.toNat →
      exec (.refusedCommand code tag) s = .next (taken.formAck ⟨code, tag, some .refusedCommand, 0⟩)) ∧
    (s.takesWord (.request c.code tag) → s.cm.inProgress ≠ none →
      exec (c.instr tag) s = .next (taken.formAck ⟨c.code, tag, some .refusedBusy, 0⟩)) ∧
    (s.takesWord (.request c.code tag) → s.cm.inProgress = none →
      (c = .activate ∧ s.cm.mode ≠ .bypass ∨ c = .deactivate ∧ s.cm.mode = .draining ∨
        c ∈ [.purge, .flush, .ringRestart] ∧ s.cm.mode ≠ .active) →
      exec (c.instr tag) s = .next (taken.formAck ⟨c.code, tag, some .refusedMode, 0⟩)) ∧
    (¬ s.running → exec (c.instr tag) s = .next s)

/-- R117, R153 steps 1 and 2, R158 steps 1 and 2: ACTIVATE taken in BYPASS, and RING_RESTART taken in ACTIVE, become
the request in progress and place their hold; with the path empty and no other hold it is in force at once, and the
READ of 64 bytes at CB_BASE is offered. -/
def Obligations.LoadsPlaceTheirHold : Prop :=
  ∀ (s : State) (c : Command) (h : Hold) (tag : Byte),
    (c = .activate ∧ h = .activateLoad ∧ s.cm.mode = .bypass ∨
      c = .ringRestart ∧ h = .ringLoad ∧ s.cm.mode = .active) →
    s.takesWord (.request c.code tag) → s.cm.inProgress = none →
    let t := s.wordTaken
    let inForce : State := { t with cm := { t.cm with
      inProgress := some (.block c tag), hold := some h, placed := none, configRead := .offered } }
    (s.path = none → s.cm.hold = none → exec (c.instr tag) s = .next inForce ∧
      inForce.offer .path = some (.read s.cm.cbBase (.burst 8), .configRead)) ∧
    (s.path ≠ none ∨ s.cm.hold ≠ none → exec (c.instr tag) s = .next
      { t with cm := { t.cm with inProgress := some (.block c tag), placed := some h } })

/-- R149 steps 1 and 2, R150, R155: DEACTIVATE in BYPASS changes nothing and is DONE at once; in ACTIVE the mode
becomes DRAINING and the hold DRAIN_START is placed; in HALTED the discard is begun. -/
def Obligations.DeactivateActsByMode : Prop :=
  ∀ (s : State) (tag : Byte), s.takesWord (.request 2 tag) → s.cm.inProgress = none →
    let t := s.wordTaken
    (s.cm.mode = .bypass → exec (.deactivate tag) s = .next (t.formAck ⟨2, tag, some .done, 0⟩)) ∧
    (s.cm.mode = .active → exec (.deactivate tag) s = .next ({ t with cm := { t.cm with
      mode := .draining
      fatalCause := .noCause
      inProgress := some (.block .deactivate tag)
      leaving := .starting
      placed := some .drainStart
      mirror := { s.cm.mirror with modePending := true } } }.settleHold)) ∧
    (s.cm.mode = .halted → exec (.deactivate tag) s = .next { t with cm := { t.cm with
      inProgress := some (.block .deactivate tag), leaving := .discarding } })

/-- R61, R156, R159: PURGE in ACTIVE empties the Window Cache; CLEAR_STATUS in any mode clears the six flags it names
and the fault latch, and keeps RING_BROKEN and FATAL; each is DONE at once, and changes nothing else but what the
mirror has pending. That the clearing makes LAST_FAULT pending where a record was latched, and not where none was, is
the model's reading (log 12, deduced from R162 and R163). -/
def Obligations.PurgeAndClearStatusAreDoneAtOnce : Prop :=
  ∀ (s : State) (tag : Byte), s.cm.inProgress = none →
    let t := s.wordTaken
    let f := s.cm.flags
    let l := s.cm.latch
    let m := s.cm.mirror
    let changed := f.overrun || f.indexError || f.dataLost || f.dropped || f.configError || f.mirrorFault
      || l.record.isSome || l.more
    (s.takesWord (.request 3 tag) → s.cm.mode = .active →
      exec (.purge tag) s = .next ({ t with windows := [] }.formAck ⟨3, tag, some .done, 0⟩)) ∧
    (s.takesWord (.request 6 tag) → exec (.clearStatus tag) s = .next ({ t with cm := { t.cm with
      flags := ⟨false, f.ringBroken, false, false, false, false, false, f.fatal⟩
      latch := ⟨none, false⟩
      mirror := { m with
        statusPending := m.statusPending || changed
        faultPending := m.faultPending || l.record.isSome } } }.formAck ⟨6, tag, some .done, 0⟩))

/-- R91, R105, R107, R157: FLUSH taken in ACTIVE marks every DIRTY and WRITING line and every FILLING line with
pending operations, and starts a covering write-back of every DIRTY line, in an order the spec leaves open (log 9). It
stays in progress while a mark is left, and is DONE at once if none is. R93, R106, R107: while a FLUSH is in progress,
a write-back of a marked line that completes OKAY clears the mark if it covered or if REDIRTY is clear; otherwise the
line is written again at once, covering, and keeps its mark. A fill of a marked line that completes OKAY clears the
mark if the line is as fetched; otherwise the line is written at once, covering, and keeps its mark, and an operation
that waited on its full list then finds it WRITING and sets REDIRTY (the model's choice of order, log 14). One that
completes ERROR clears the mark with the line. The FLUSH is DONE when the last mark is cleared. O19 has a read that
waits on the line; O17, O18 and O60 have the requests held that are tried again, and O19 and O20 those that go on. -/
def Obligations.FlushMarksAndWritesLines : Prop :=
  (∀ (s : State) (tag : Byte), s.takesWord (.request 4 tag) → s.cm.inProgress = none → s.cm.mode = .active →
    ∃ (started : List (Fin 64)) (u : State), exec (.flush tag) s = .next u ∧ started.Perm s.dirtyLines ∧
      (∀ i, u.line i =
        let l := s.line i
        match l.state with
        | .dirty => { l with state := .writing, writeCopy := l.record, covers := true, evict := false, redirty := false,
                             age := none, flushMark := true }
        | .writing => { l with flushMark := true }
        | .filling => { l with flushMark := !l.pending.isEmpty }
        | .free | .clean => l) ∧
      u.acc.writeQueue = s.acc.writeQueue ++ started ∧ u.acc.fillQueue = s.acc.fillQueue ∧
      u.acc.order = s.acc.order ∧ u.acc.ageInterval = s.acc.ageInterval ∧
      ((∃ i, (u.line i).flushMark = true) →
        u.cm = { s.wordTaken.cm with inProgress := some (.block .flush tag) }) ∧
      ((∀ i, (u.line i).flushMark = false) →
        u.cm = (s.wordTaken.formAck ⟨4, tag, some .done, 0⟩).cm) ∧
      u = { s with acc := u.acc, cm := u.cm, freeTick := u.freeTick }) ∧
  (∀ (s : State) (tag : Byte) (i : Fin 64), (s.line i).state = .writing → (s.line i).flushMark = true →
      s.path = none → s.cm.leaving ≠ .draining → s.cm.inProgress = some (.block .flush tag) →
      let l := s.line i
      let cleared := l.covers = true ∨ l.redirty = false
      let u := s.completeWriteBack i .okay
      u = { s with acc := u.acc, cm := u.cm } ∧ (∀ j, j ≠ i → u.line j = s.line j) ∧
      u.acc.fillQueue = s.acc.fillQueue ∧
      (cleared → (u.line i).flushMark = false ∧ u.acc.writeQueue = s.acc.writeQueue ∧
        (u.line i).state = (if l.redirty then .dirty else if l.evict then .free else .clean)) ∧
      (¬ cleared → (u.line i).state = .writing ∧ (u.line i).flushMark = true ∧ (u.line i).covers = true ∧
        (u.line i).redirty = false ∧ (u.line i).evict = false ∧ (u.line i).writeCopy = l.record ∧
        (u.line i).record = l.record ∧ u.acc.writeQueue = s.acc.writeQueue ++ [i]) ∧
      ((∃ j, (u.line j).flushMark = true) → u.cm = s.cm) ∧
      ((∀ j, (u.line j).flushMark = false) → u.cm =
        (State.formAck ⟨4, tag, some .done, 0⟩ { s with cm := { s.cm with inProgress := none } }).cm)) ∧
  (∀ (s : State) (tag : Byte) (i : Fin 64) (data : Payload), (s.line i).state = .filling →
      (s.line i).flushMark = true → s.cm.leaving ≠ .draining → s.cm.inProgress = some (.block .flush tag) →
      let l := s.line i
      let fetched := Record.decode (data.setWidth 64)
      let applied := l.pending.foldl (fun x op => (evaluate op x).record) fetched
      let u := s.completeFill i .okay data
      let lost := s.completeFill i .error data
      let written : Line := { l with
        state := .writing, record := applied, pending := [], writeCopy := applied, covers := true, evict := false,
        redirty := false, age := none }
      (s.path = none →
        (∀ j, j ≠ i → u.line j = s.line j) ∧ u.acc.fillQueue = s.acc.fillQueue ∧
        (applied = fetched → u.acc.writeQueue = s.acc.writeQueue ∧
          u.line i = { l with state := .clean, record := fetched, pending := [], age := none, flushMark := false }) ∧
        (applied ≠ fetched → u.acc.writeQueue = s.acc.writeQueue ++ [i] ∧ u.line i = written) ∧
        lost.line i = Line.empty ∧ (∀ j, j ≠ i → lost.line j = s.line j) ∧
        (∀ t ∈ [u, lost],
          ((∃ j, (t.line j).flushMark = true) →
            t.cm.inProgress = some (.block .flush tag) ∧ t.cm.mirror.lastAck = s.cm.mirror.lastAck) ∧
          ((∀ j, (t.line j).flushMark = false) →
            t.cm.inProgress = none ∧ t.cm.mirror.lastAck = some ⟨4, tag, some .done, 0⟩))) ∧
      (∀ r op, s.path = some ⟨r, .operation op l.backing⟩ → applied ≠ fetched →
        (∀ j, (s.line j).inUse → (s.line j).backing = l.backing → j = i) →
        u.path = none ∧ u.line i = { written with record := (evaluate op applied).record, redirty := true }))

/-- R108, R149 steps 3 and 4: at the beginning of the drain the Window Cache is emptied, every mark is cleared, CLEAN
lines become FREE, DIRTY ones start an evicting write-back, in an order the spec leaves open (log 9), and WRITING ones
gain EVICT; the hold is released; with every line FREE the ring release is awaited at once. R108 steps 5 and 6, R149
step 4, during the drain: a line whose write-back completes OKAY becomes FREE, or with REDIRTY set is written again
with EVICT set; one whose fill completes OKAY becomes FREE if it is as fetched, and is otherwise written with EVICT
set; one whose fill completes ERROR becomes FREE; and when the last line has become FREE the ring release is awaited.
These are with no request held; a forwarded access held in settling during the drain (R104) is O60's, which judges its
lines on what is said here. R110, R150 steps 1 to 3: with no fill or write-back in flight the awaited discard frees
every line, sets DATA_LOST and awaits the ring release; with one in flight the step does not take place, and nothing
changes (log 1). -/
def Obligations.TheDrainAndTheDiscardFreeLines : Prop :=
  (∀ (s : State), s.current → s.cm.hold = some .drainStart → s.cm.leaving = .starting → s.cm.placed = none →
      ∃ (started : List (Fin 64)) (u : State), exec .drainBegin s = .next u ∧ started.Perm s.dirtyLines ∧
        (∀ i, u.line i =
          let l := s.line i
          match l.state with
          | .clean => Line.empty
          | .dirty => { l with state := .writing, writeCopy := l.record, covers := false, evict := true, redirty := false,
                               age := none, flushMark := false }
          | .writing => { l with flushMark := false, evict := true }
          | .free | .filling => { l with flushMark := false }) ∧
        u.acc.order = s.acc.order.filter (fun i => decide ((u.line i).state ≠ .free)) ∧
        u.acc.writeQueue = s.acc.writeQueue ++ started ∧ u.acc.fillQueue = s.acc.fillQueue ∧ u.windows = [] ∧
        u.cm = { s.cm with
          hold := none
          leaving := if ∀ i, (u.line i).state = .free then .releasing else .draining } ∧
        u = { s with windows := u.windows, acc := u.acc, cm := u.cm, freeTick := u.freeTick }) ∧
  (∀ (s : State) (i : Fin 64) (data : Payload), s.path = none → s.cm.leaving = .draining → s.flushing = false →
      (s.line i).flushMark = false →
      let l := s.line i
      let fetched := Record.decode (data.setWidth 64)
      let applied := l.pending.foldl (fun x op => (evaluate op x).record) fetched
      let evicted (line : Line) : Line := { line with
        state := .writing, writeCopy := line.record, covers := false, evict := true, redirty := false, age := none }
      let others (u : State) : Prop :=
        (∀ j, j ≠ i → u.line j = s.line j) ∧ u.acc.fillQueue = s.acc.fillQueue ∧ u.path = none ∧ u.up = s.up ∧
        u.windows = s.windows ∧ u.cm.mode = s.cm.mode ∧ u.cm.inProgress = s.cm.inProgress ∧
        u.cm.leaving = if ∀ j, (u.line j).state = .free then .releasing else .draining
      let freed (u : State) : Prop := others u ∧ u.line i = Line.empty ∧ u.acc.writeQueue = s.acc.writeQueue
      let started (line : Line) (u : State) : Prop :=
        others u ∧ u.line i = evicted line ∧ u.acc.writeQueue = s.acc.writeQueue ++ [i]
      (l.state = .writing → l.redirty = false → freed (s.completeWriteBack i .okay)) ∧
      (l.state = .writing → l.redirty = true → started l (s.completeWriteBack i .okay)) ∧
      (l.state = .filling → applied = fetched → freed (s.completeFill i .okay data)) ∧
      (l.state = .filling → applied ≠ fetched →
        started { l with record := applied, pending := [] } (s.completeFill i .okay data)) ∧
      (l.state = .filling → freed (s.completeFill i .error data))) ∧
  (∀ (s : State), s.current → s.cm.leaving = .discarding →
      let inFlight := ∃ (i : Fin 8) (k : Fin 64) (q : MemRequest), (∃ p, (p = .fill k ∨ p = .writeBack k) ∧
        ((s.down.slot i).state = .waiting q p ∨ ∃ st data, (s.down.slot i).state = .held q p st data))
      (¬ inFlight → exec .discard s = .next { s with
        acc := ⟨Vector.replicate 64 Line.empty, [], [], [], s.acc.ageInterval⟩
        cm := { s.cm with
          flags := { s.cm.flags with dataLost := true }
          leaving := .releasing
          mirror := { s.cm.mirror with statusPending := s.cm.mirror.statusPending || !s.cm.flags.dataLost } } }) ∧
      (inFlight → exec .discard s = .next s))

/-- R154: the ten checks in their order; the first that fails gives the code. RING_RESTART makes checks 1, 7, 8 and 9,
against the loaded configuration. Ranges overlap where they share a byte. -/
def Obligations.ValidationGivesTheFirstFailure : Prop :=
  ∀ (cb : Addr) (c : LoadedConfig) (st : Status) (a : ConfigArea),
    let share (b m d n : Nat) : Bool := decide (b < d + n ∧ d < b + m)
    let first (checks : List (ConfigCode × Bool)) : Option ConfigCode := (checks.find? (·.2)).map (·.1)
    let ringChecks (spanBase dirBase : Addr) (k : Nat) : List (ConfigCode × Bool) :=
      let ring := 32 * 2 ^ a.ringSize
      [(.ringSizeBad, decide (a.ringSize < 4 ∨ 12 < a.ringSize)),
        (.ringAlign, decide (a.ringBase.toNat % 32 ≠ 0 ∨ 2 ^ 32 < a.ringBase.toNat + ring)),
        (.ringOverlap, share a.ringBase.toNat ring spanBase.toNat (2 ^ 18 * 2 ^ k)
          || share a.ringBase.toNat ring dirBase.toNat (8 * 2 ^ k) || share a.ringBase.toNat ring cb.toNat 256)]
    let span := 2 ^ 18 * 2 ^ a.spanSize
    validateActivate cb st a = first (
      [(.configReadError, decide (st = .error)), (.spanSizeBad, decide (9 < a.spanSize)),
        (.spanAlign, decide (a.spanBase.toNat % span ≠ 0)), (.dirAlign, decide (a.dirBase.toNat % 4096 ≠ 0)),
        (.dirOverlap, share a.dirBase.toNat (8 * 2 ^ a.spanSize) a.spanBase.toNat span),
        (.cbOverlap, share cb.toNat 256 a.spanBase.toNat span)]
      ++ ringChecks a.spanBase a.dirBase a.spanSize ++ [(.ageBad, decide (1023 < a.ageInterval))]) ∧
    validateRestart cb c st a =
      first ((.configReadError, decide (st = .error)) :: ringChecks c.spanBase c.dirBase c.spanSize)

/-- 11.6: the fields of the configuration area, at their offsets in the 64 bytes read, least significant byte first.
R138, R147, R153: the configuration read of an ACTIVATE. Failing validation gives CONFIG_CODE, CONFIG_ERROR and the
ACK CONFIG_ERROR with the code, and loads nothing. Success loads the fields, gives AGE_INTERVAL to the cache, starts
the ring with both indices 0, clears RING_BROKEN, makes the mode ACTIVE and releases the hold. Either completion of
the PRODUCED write of 0 then ends the request with DONE. -/
def Obligations.ActivateLoadsTheConfiguration : Prop :=
  (∀ data : Payload,
    let a := ConfigArea.decode data
    let field (offset bits : Nat) : Nat := data.toNat / 2 ^ (8 * offset) % 2 ^ bits
    a.spanBase.toNat = field 0x00 32 ∧ a.spanSize = field 0x04 8 ∧ a.dirBase.toNat = field 0x08 32 ∧
    a.ringBase.toNat = field 0x10 32 ∧ a.ringSize = field 0x14 8 ∧ a.ageInterval = field 0x18 16 ∧
    a.groupMap.toNat = field 0x1C 32 ∧ (a.attnEnable = true ↔ field 0x20 1 = 1)) ∧
  ∀ (s : State) (tag : Byte) (st : Status) (data : Payload), s.cm.inProgress = some (.block .activate tag) →
    s.cm.placed = none →
    let a := ConfigArea.decode data
    let verdict := validateActivate s.cm.cbBase st a
    let t := s.complete .configRead st data
    (∀ code, s.cm.hold = some .activateLoad → s.cm.configRead = .inFlight false → verdict = some code →
      t = State.formAck ⟨1, tag, some .configError, BitVec.ofNat 8 code.number⟩ { s with cm := { s.cm with
        hold := none
        configRead := .idle
        inProgress := none
        configCode := some code
        flags := { s.cm.flags with configError := true }
        mirror := { s.cm.mirror with
          statusPending := s.cm.mirror.statusPending || !s.cm.flags.configError } } }) ∧
    (s.cm.hold = some .activateLoad → s.cm.configRead = .inFlight false → s.cm.mode = .bypass → verdict = none →
      t = { s with
        acc := { s.acc with ageInterval := a.ageInterval }
        ring := { s.ring with
          state := .active, base := a.ringBase, size := a.ringSize, attnEnable := a.attnEnable, produced := 0,
          consumed := 0, phase := .index, issued := false, inHand := none, zeroWrite := some .activate }
        cm := { s.cm with
          mode := .active
          fatalCause := .noCause
          hold := none
          configRead := .idle
          config := ⟨a.spanBase, a.spanSize, a.dirBase, a.groupMap⟩
          configCode := none
          flags := { s.cm.flags with ringBroken := false }
          mirror := { s.cm.mirror with
            modePending := true
            statusPending := s.cm.mirror.statusPending || s.cm.flags.ringBroken
            producedPending := false } } }) ∧
    (s.ring.zeroWrite = some .activate → s.ring.phase = .index → s.ring.issued = true → s.ring.inHand = none →
      s.complete .ringProduced .okay data = State.formAck ⟨1, tag, some .done, 0⟩ { s with
        ring := { s.ring with produced := 0, phase := .idle, issued := false, zeroWrite := none }
        cm := { s.cm with inProgress := none } } ∧
      (s.complete .ringProduced .error data).cm.inProgress = none ∧
      (s.complete .ringProduced .error data).cm.mirror.lastAck = some ⟨1, tag, some .done, 0⟩ ∧
      (s.complete .ringProduced .error data).ring.state = .broken ∧
      (s.complete .ringProduced .error data).cm.flags.ringBroken = true)

/-- R139, R154, R158: the configuration read of a RING_RESTART releases the hold. Failing validation gives
CONFIG_CODE, CONFIG_ERROR and the ACK, and leaves the ring; success hands the base and size to the writer as a pending
restart, and either completion of its PRODUCED write of 0 ends the request with DONE. R117, R149, R158, R160: the
configuration read of a request abandoned meanwhile completes with either status and any data to no effect but this:
its hold is released, and a DRAIN_START that was placed takes its place. -/
def Obligations.RingRestartLoadsBaseAndSize : Prop :=
  (∀ (s : State) (tag : Byte) (st : Status) (data : Payload), s.cm.inProgress = some (.block .ringRestart tag) →
    s.cm.placed = none →
    let a := ConfigArea.decode data
    let verdict := validateRestart s.cm.cbBase s.cm.config st a
    let t := s.complete .configRead st data
    (∀ code, s.cm.hold = some .ringLoad → s.cm.configRead = .inFlight false → verdict = some code →
      t = State.formAck ⟨5, tag, some .configError, BitVec.ofNat 8 code.number⟩ { s with cm := { s.cm with
        hold := none
        configRead := .idle
        inProgress := none
        configCode := some code
        flags := { s.cm.flags with configError := true }
        mirror := { s.cm.mirror with
          statusPending := s.cm.mirror.statusPending || !s.cm.flags.configError } } }) ∧
    (s.cm.hold = some .ringLoad → s.cm.configRead = .inFlight false → verdict = none →
      t = { s with
        ring := { s.ring with restart := some (a.ringBase, a.ringSize) }
        cm := { s.cm with hold := none, configRead := .idle, configCode := none } }) ∧
    (s.ring.zeroWrite = some .restart → s.ring.phase = .index → s.ring.issued = true →
      (s.complete .ringProduced st data).cm.inProgress = none ∧
      (s.complete .ringProduced st data).cm.mirror.lastAck = some ⟨5, tag, some .done, 0⟩)) ∧
  (∀ (s : State) (h : Hold) (st : Status) (data : Payload), s.cm.configRead = .inFlight true → s.cm.hold = some h →
      (s.cm.placed = none →
        s.complete .configRead st data = { s with cm := { s.cm with hold := none, configRead := .idle } }) ∧
      (s.cm.placed = some .drainStart → s.path = none →
        s.complete .configRead st data = { s with cm := { s.cm with
          hold := some .drainStart, placed := none, configRead := .idle } }))

/-- R163: the mirror offers one write at a time, with the word's value as it stands, in the order MODE_STATUS, STATUS,
LAST_FAULT, PRODUCED and the head ACK; the issue clears the word's indicator or takes the ACK from the list. 11.6:
LAST_FAULT carries the latched record, or 32 bytes of zero; the codes of the modes (0 to 3), fatal causes (0, 1),
commands (1 to 6) and outcomes (1 to 7) are those of its tables, and those of the validation failures (1 to 10) are
the order of R154. 11.5: the 32 bytes of an event record and its ACCESS byte, as the tables place their fields; a
field that is absent is zero. -/
def Obligations.TheMirrorWritesInItsOrder : Prop :=
  ([Mode.bypass, .active, .draining, .halted].map Mode.code = [0, 1, 2, 3] ∧
    [FatalCause.noCause, .writebackError].map FatalCause.code = [0, 1] ∧
    [Command.activate, .deactivate, .purge, .flush, .ringRestart, .clearStatus].map Command.code = [1, 2, 3, 4, 5, 6] ∧
    [AckOutcome.done, .failed, .configError, .refusedCommand, .refusedBusy, .refusedMode, .abandoned].map AckOutcome.code
      = [1, 2, 3, 4, 5, 6, 7] ∧
    [ConfigCode.configReadError, .spanSizeBad, .spanAlign, .dirAlign, .dirOverlap, .cbOverlap, .ringSizeBad, .ringAlign,
      .ringOverlap, .ageBad].map ConfigCode.number = [1, 2, 3, 4, 5, 6, 7, 8, 9, 10]) ∧
  (∀ (s : State) (q : MemRequest),
    let m := s.cm.mirror
    let write (offset : Nat) (shape : Shape) (bytes : List Byte) : Option (MemRequest × Purpose) :=
      some (.write (s.cm.cbBase + BitVec.ofNat 32 offset) shape bytes, .mirror)
    (m.inFlight = true → s.offer .mirror = none) ∧
    (m.inFlight = false → m.modePending = true →
      s.offer .mirror = write 0x88 (.single .b8)
        [BitVec.ofNat 8 s.cm.mode.code, BitVec.ofNat 8 s.cm.fatalCause.code, 0, 0, 0, 0, 0, 0] ∧
      (s.requesterIssued q .mirror).cm.mirror = { m with modePending := false, inFlight := true }) ∧
    (m.inFlight = false → m.modePending = false → m.statusPending = true →
      s.offer .mirror = write 0x90 (.single .b8) (leBytes 8 (flagsWord s.cm.flags s.cm.latch)) ∧
      (s.requesterIssued q .mirror).cm.mirror = { m with statusPending := false, inFlight := true }) ∧
    (m.inFlight = false → m.modePending = false → m.statusPending = false → m.faultPending = true →
      s.offer .mirror = write 0xA0 (.burst 4) (lastFaultBytes s.cm.latch) ∧
      (s.requesterIssued q .mirror).cm.mirror = { m with faultPending := false, inFlight := true }) ∧
    (m.inFlight = false → m.modePending = false → m.statusPending = false → m.faultPending = false →
      m.producedPending = true →
      s.offer .mirror = write 0x98 (.single .b8) (leBytes 8 s.ring.produced.toNat) ∧
      (s.requesterIssued q .mirror).cm.mirror = { m with producedPending := false, inFlight := true }) ∧
    (∀ a rest, m.inFlight = false → m.modePending = false → m.statusPending = false → m.faultPending = false →
      m.producedPending = false → m.acks = a :: rest →
      s.offer .mirror = write 0x80 (.single .b8)
        [a.command, a.tag, (a.outcome.map AckOutcome.code).getD 0, a.detail, 0, 0, 0, 0] ∧
      (s.requesterIssued q .mirror).cm.mirror = { m with acks := rest, inFlight := true })) ∧
  (∀ (f : StickyFlags) (l : FaultLatch) (i : Nat), (flagsWord f l).testBit i =
    ([f.overrun, f.ringBroken, f.indexError, f.dataLost, f.dropped, f.configError, f.mirrorFault, f.fatal,
      l.record.isSome, l.more, false, false, false, false, false,
      f.overrun || f.ringBroken || f.indexError || f.dataLost || f.dropped || f.configError || f.mirrorFault || f.fatal
      ][i]?.getD false)) ∧
  (∀ (e : EventRecord) (more : Bool) (a : Access),
    let le (n bytes : Nat) : List Byte := (List.range bytes).map fun k => BitVec.ofNat 8 (n / 2 ^ (8 * k))
    let kind : Byte := match e.kind with
      | .threshold => 1
      | .fault => 2
      | .fillLost => 3
      | .writeError => 4
      | .halt => 5
    let cause : Byte := match e.cause with
      | none => 0
      | some .dirAbsent => 1
      | some .winAbsent => 2
      | some .malformed => 3
      | some .rights => 4
      | some .group => 5
      | some .shape => 6
      | some .boundary => 7
      | some .tableError => 8
    lastFaultBytes ⟨none, more⟩ = List.replicate 32 0 ∧ lastFaultBytes ⟨some e, more⟩ = e.bytes ∧
    e.bytes = [kind, cause, BitVec.ofNat 8 (e.master.val + 128 * e.backing.isSome.toNat), e.access]
      ++ le e.upstream.toNat 4 ++ le (e.backing.getD 0).toNat 4 ++ le e.detail.toNat 4
      ++ le e.before.word.toNat 8 ++ le e.after.word.toNat 8 ∧
    (a.byte.getLsbD 0 = true ↔ a.kind = .write) ∧ (a.byte.getLsbD 1 = true ↔ a.priv = .sup) ∧
    (∀ size, a.shape = .single size → a.byte.getLsbD 2 = false ∧ a.byte.getLsbD 3 = false ∧
      size.bytes = 2 ^ (a.byte.toNat / 16)) ∧
    (∀ beats, a.shape = .burst beats → beats ≤ 8 → a.byte.getLsbD 2 = true ∧ a.byte.getLsbD 3 = false ∧
      a.byte.toNat / 16 = beats))

/-- R152, R162, R163, R164: an ACK formed joins a list of fewer than 4, and otherwise sets MIRROR_FAULT; the
completion of a mirror write makes room for the next, an ERROR setting MIRROR_FAULT and retrying nothing. The first
fault reported is latched, and later ones set FAULT_MORE alone. -/
def Obligations.AcksAndFaultsAreKept : Prop :=
  ∀ (s : State) (a : Ack) (e : EventRecord) (data : Payload),
    let m := s.cm.mirror
    let withMirrorFault (n : Mirror) : State := { s with cm := { s.cm with
      flags := { s.cm.flags with mirrorFault := true }
      mirror := { n with statusPending := m.statusPending || !s.cm.flags.mirrorFault } } }
    (m.acks.length < 4 →
      s.formAck a = { s with cm := { s.cm with mirror := { m with acks := m.acks ++ [a], lastAck := some a } } }) ∧
    (4 ≤ m.acks.length → s.formAck a = withMirrorFault { m with lastAck := some a }) ∧
    s.complete .mirror .okay data = { s with cm := { s.cm with mirror := { m with inFlight := false } } } ∧
    s.complete .mirror .error data = withMirrorFault { m with inFlight := false } ∧
    (s.cm.latch = ⟨none, false⟩ → s.reportFault e = { s with cm := { s.cm with
      latch := ⟨some e, false⟩
      mirror := { m with statusPending := true, faultPending := true } } }) ∧
    (∀ first more, s.cm.latch = ⟨some first, more⟩ → s.reportFault e = { s with cm := { s.cm with
      latch := ⟨some first, true⟩
      mirror := { m with statusPending := m.statusPending || !more } } })

/-! ### The Management Link (spec/09) -/

/-- R166 to R169: a character with a bad stop or parity bit, or one that finds the buffer full, sets its flag, empties
the buffer, loses a partly assembled command and enters DISCARD; a good one joins the buffer with the follows-gap mark
that is awaited. The gap timer starts afresh at each; its expiry leaves DISCARD and makes the next byte follow a gap,
or discards the frame being assembled; a start bit stops it. After a missing stop bit nothing is received until the
line rests at the stop level. R167, R177, R179: MLRTS is asserted while the buffer holds 5 bytes or fewer, deasserted
while it holds 6 or more, and deasserted while RSTn is asserted. The model's own: an expiry while no gap timer runs
changes nothing (log 5); a character is judged whether or not its start bit was presented before it, and none is while
the stop level is awaited (log 25). -/
def Obligations.CharactersAreReceived : Prop :=
  (∀ s : State, (s.running → s.link.buffer.length ≤ 5 → s.mlrtsAsserted = true) ∧
    (6 ≤ s.link.buffer.length → s.mlrtsAsserted = false) ∧ (¬ s.running → s.mlrtsAsserted = false)) ∧
  (∀ (s : State) (data : Byte) (parity stop : Bool), s.running →
    let l := s.link
    let even := decide (((List.range 8).countP data.getLsbD + parity.toNat) % 2 = 0)
    let heard := { l with receiving := false, gapRunning := true, awaitStop := !stop }
    let lost (e : LineErrors) : State := { s with link := { heard with
      buffer := []
      gapAwaiting := false
      discard := true
      parser := (match l.parser with
        | .assembling _ => .idle
        | p => p)
      errors := e } }
    (l.awaitStop = true → exec (.characterArrival data parity stop) s = .next s) ∧
    (l.awaitStop = false → (stop && even) = false → exec (.characterArrival data parity stop) s = .next (lost
      { l.errors with framing := l.errors.framing || !stop, parity := l.errors.parity || !even })) ∧
    (l.awaitStop = false → (stop && even) = true → l.discard = false → 8 ≤ l.buffer.length →
      exec (.characterArrival data parity stop) s = .next (lost { l.errors with overrunLine := true })) ∧
    (l.awaitStop = false → (stop && even) = true → l.discard = false → l.buffer.length < 8 →
      exec (.characterArrival data parity stop) s = .next { s with link := { heard with
        buffer := l.buffer ++ [⟨data, l.gapAwaiting⟩], gapAwaiting := false } }) ∧
    (l.awaitStop = false → (stop && even) = true → l.discard = true →
      exec (.characterArrival data parity stop) s = .next { s with link := heard }) ∧
    (l.gapRunning = true → l.buffer ≠ [] ∨ (∀ taken, l.parser ≠ .assembling taken) →
      exec .gapTimerExpiry s =
        .next { s with link := { l with gapRunning := false, discard := false, gapAwaiting := true } }) ∧
    (∀ taken, l.gapRunning = true → l.buffer = [] → l.parser = .assembling taken → exec .gapTimerExpiry s =
      .next { s with link := { l with
        gapRunning := false, discard := false, parser := .idle, errors := { l.errors with timeoutDiscard := true } } }) ∧
    (l.gapRunning = false → exec .gapTimerExpiry s = .next s) ∧
    (l.receiving = false → l.awaitStop = false → exec .startBitBegun s =
      .next { s with link := { l with receiving := true, gapRunning := false } }) ∧
    exec .mlrxStopLevelRestored s = .next { s with link := { l with awaitStop := false } })

/-- R168, R170, R171 steps 1 and 2: the parser takes the head byte, which opens a new frame after a gap. A frame of 3
bytes, or 7 for opcode 2, is judged when it is whole: a wrong check byte is answered BAD_CHECK and sets its flag, an
unknown opcode BAD_COMMAND, and any other frame is served as its command. That this step leaves such a frame in
SERVING with its command not yet carried out, and its register tests to the command's own row, is the model's choice
(log 4). -/
def Obligations.FramesAreAssembledAndJudged : Prop :=
  ∀ (s : State) (x : LinkByte) (rest : List LinkByte) (taken : List Byte), s.running → s.link.buffer = x :: rest →
    (s.link.parser = .idle ∧ taken = [] ∨ s.link.parser = .assembling taken) →
    let l := s.link
    let dropped := decide (l.parser = .assembling taken) && x.followsGap
    let frame := (if dropped then [] else taken) ++ [x.byte]
    let length := if frame[0]? = some 2 then 7 else 3
    let link : Link := { l with
      buffer := rest, errors := { l.errors with timeoutDiscard := l.errors.timeoutDiscard || dropped } }
    let t : State := { s with link := link }
    let check := frame.getLast? = some frame.dropLast.sum
    (frame.length < length → exec .parserTakeByte s = .next { s with link := { link with parser := .assembling frame } }) ∧
    (frame.length = length → ¬ check → exec .parserTakeByte s =
      .next (State.responding { t with link := { link with errors := { link.errors with badCheckSeen := true } } }
        1 0 false)) ∧
    (frame.length = length → check → frame[0]? = some 0 ∨ (∃ b ∈ frame[0]?, 5 < b.toNat) →
      exec .parserTakeByte s = .next (t.responding 2 0 false)) ∧
    (∀ c r, c = .read r ∧ frame.take 2 = [1, r] ∨ c = .forceBypass ∧ frame.take 2 = [3, r] ∨
        c = .clearFlags ∧ frame.take 2 = [4, r] ∨ c = .restart ∧ frame.take 2 = [5, r] →
      frame.length = length → check →
      exec .parserTakeByte s = .next { s with link := { link with parser := .serving c } }) ∧
    (∀ r d0 d1 d2 d3, frame.take 6 = [2, r, d0, d1, d2, d3] → frame.length = length → check →
      exec .parserTakeByte s = .next { s with link := { link with parser := .serving (.write r (d3 ++ d2 ++ d1 ++ d0)) } })

/-- R171, R172: READ answers OK with the value of the register named, and BAD_REGISTER with data 0 for a number that
no register has; WRITE of another register than CB_BASE is answered REFUSED if the register exists, and BAD_REGISTER
otherwise. Nothing but the parser changes. R164, R173: a WRITE of CB_BASE in BYPASS, with no request in progress and a
256-aligned value, moves the control block: every mirror word is pending, and a copy of the last ACK formed, or the
ACK of zeros, joins the ACK list (or, as log 13 deduces, finds it full and sets MIRROR_FAULT). Otherwise it is
answered REFUSED and changes nothing. The model's own: a command's row is carried out for the frame the parser serves,
or with the parser IDLE for a frame presented whole (log 4); the plain row WRITE with the number of CB_BASE, which has
a row of its own, is no command of the table and is refused (log 22). -/
def Obligations.RegistersAreReadAndGuarded : Prop :=
  (∀ (s : State) (n : Byte) (d : BitVec 32),
      let e := s.link.errors
      let known := n.toNat ≤ 6 ∨ 0x10 ≤ n.toNat ∧ n.toNat ≤ 0x17
      let value : BitVec 32 :=
        if n = 0 then 0x4A4C0740
        else if n = 1 then BitVec.ofNat 32
          (s.cm.mode.code + 0x100 * s.cm.fatalCause.code + 0x10000 * s.cm.inProgress.isSome.toNat)
        else if n = 2 then BitVec.ofNat 32 (flagsWord s.cm.flags s.cm.latch)
        else if n = 3 then BitVec.ofNat 32 ((s.cm.configCode.map ConfigCode.number).getD 0)
        else if n = 4 then s.ring.consumed ++ s.ring.produced
        else if n = 5 then BitVec.ofNat 32
          (e.framing.toNat + 2 * e.parity.toNat + 4 * e.overrunLine.toNat + 8 * e.timeoutDiscard.toNat
            + 16 * e.badCheckSeen.toNat)
        else if n = 6 then s.cm.cbBase
        else BitVec.ofNat 32 (leNat (((lastFaultBytes s.cm.latch).drop (4 * (n.toNat - 0x10))).take 4))
      (s.takesCommand (.read n) → s.cm.recognised = [] → known → exec (.read n) s = .next (s.responding 0 value false)) ∧
      (s.takesCommand (.read n) → s.cm.recognised = [] → ¬ known → exec (.read n) s = .next (s.responding 3 0 false)) ∧
      (n ≠ 6 → s.takesCommand (.write n d) → known → exec (.write n d) s = .next (s.responding 4 0 false)) ∧
      (n ≠ 6 → s.takesCommand (.write n d) → ¬ known → exec (.write n d) s = .next (s.responding 3 0 false)) ∧
      exec (.write 6 d) s = .refused .illFormedCommand) ∧
  (∀ (s : State) (d : BitVec 32), s.takesCommand (.write 6 d) → s.cm.recognised = [] →
      let may := s.cm.mode = .bypass ∧ s.cm.inProgress = none ∧ d.toNat % 256 = 0
      let a := s.cm.mirror.lastAck.getD ⟨0, 0, none, 0⟩
      let m := { s.cm.mirror with modePending := true, statusPending := true, faultPending := true, producedPending := true }
      (may → s.cm.mirror.acks.length < 4 → exec (.writeCbBase d) s = .next (State.responding { s with cm := { s.cm with
        cbBase := d, mirror := { m with acks := m.acks ++ [a] } } } 0 0 false)) ∧
      (may → 4 ≤ s.cm.mirror.acks.length → exec (.writeCbBase d) s = .next (State.responding { s with cm := { s.cm with
        cbBase := d, mirror := m, flags := { s.cm.flags with mirrorFault := true } } } 0 0 false)) ∧
      (¬ may → exec (.writeCbBase d) s = .next (s.responding 4 0 false)))

/-- R160, R174: FORCE_BYPASS is answered OK. While a DEACTIVATE or another forced bypass is in progress, and in BYPASS
with no request in progress, it changes nothing else; in ACTIVE it begins DRAINING and in HALTED the discard, as the
request in progress. A block request of another command that it finds in progress is abandoned: its ACK, ABANDONED, is
the last formed and joins the ACK list, or finds it full and sets MIRROR_FAULT (R163, R164); the forced bypass takes
its place and acts in the mode in force, ending at once in BYPASS. The hold of an abandoned ACTIVATE or RING_RESTART
whose configuration read is in flight is kept, and the data are to be discarded; one offered and not issued is
withdrawn with its hold, and so is a hold placed for it (log 18 deduces this). R175, R176: CLEAR_FLAGS clears what
CLEAR_STATUS clears and the line error flags, and is answered OK; RESTART is answered OK, and the soft restart is to
follow its response. The model's own: LAST_FAULT becomes pending where a record was latched, and not where none was
(log 12); a command's row is carried out for the frame the parser serves, or with the parser IDLE (log 4). -/
def Obligations.TheLinkForcesBypassAndClears : Prop :=
  (∀ (s : State), s.takesCommand .forceBypass → s.cm.recognised = [] →
      ((∃ tag, s.cm.inProgress = some (.block .deactivate tag)) ∨ s.cm.inProgress = some .link ∨
        s.cm.mode = .bypass ∧ s.cm.inProgress = none → exec .forceBypass s = .next (s.responding 0 0 false)) ∧
      (s.cm.inProgress = none → s.cm.mode = .active → exec .forceBypass s = .next
        (State.responding (State.settleHold { s with cm := { s.cm with
          mode := .draining
          fatalCause := .noCause
          inProgress := some .link
          leaving := .starting
          placed := some .drainStart
          mirror := { s.cm.mirror with modePending := true } } }) 0 0 false)) ∧
      (s.cm.inProgress = none → s.cm.mode = .halted → exec .forceBypass s = .next
        (State.responding { s with cm := { s.cm with inProgress := some .link, leaving := .discarding } } 0 0 false)) ∧
      (∀ c tag, s.cm.inProgress = some (.block c tag) → c ≠ .deactivate →
        let m := s.cm.mirror
        let ack : Ack := ⟨c.code, tag, some .abandoned, 0⟩
        let full := decide (4 ≤ m.acks.length)
        let loads := c = .activate ∨ c = .ringRestart
        let hold := if loads ∧ s.cm.configRead = .offered then none else s.cm.hold
        let placed := match s.cm.configRead with
          | .inFlight _ => s.cm.placed
          | .offered | .idle => if loads then none else s.cm.placed
        let configRead := match s.cm.configRead with
          | .inFlight b => if loads then .inFlight true else .inFlight b
          | .offered => if loads then .idle else .offered
          | .idle => .idle
        let abandoned : ControlMonitor := { s.cm with
          inProgress := some .link
          hold := hold
          placed := placed
          configRead := configRead
          flags := { s.cm.flags with mirrorFault := s.cm.flags.mirrorFault || full }
          mirror := { m with
            lastAck := some ack
            acks := if full then m.acks else m.acks ++ [ack]
            statusPending := m.statusPending || (full && !s.cm.flags.mirrorFault) } }
        exec .forceBypass s = .next (State.responding { s with cm :=
          match s.cm.mode with
          | .bypass => { abandoned with inProgress := none }
          | .active => { abandoned with
              mode := .draining
              fatalCause := .noCause
              leaving := .starting
              hold := if hold = none ∧ s.path = none then some .drainStart else hold
              placed := if hold = none ∧ s.path = none then none else some .drainStart
              mirror := { abandoned.mirror with modePending := true } }
          | .halted => { abandoned with leaving := .discarding }
          | .draining => abandoned } 0 0 false))) ∧
  (∀ (s : State),
      let f := s.cm.flags
      let l := s.cm.latch
      let m := s.cm.mirror
      let changed := f.overrun || f.indexError || f.dataLost || f.dropped || f.configError || f.mirrorFault
        || l.record.isSome || l.more
      (s.takesCommand .clearFlags → s.cm.recognised = [] → exec .clearFlags s = .next (State.responding { s with
        cm := { s.cm with
          flags := ⟨false, f.ringBroken, false, false, false, false, false, f.fatal⟩
          latch := ⟨none, false⟩
          mirror := { m with
            statusPending := m.statusPending || changed
            faultPending := m.faultPending || l.record.isSome } }
        link := { s.link with errors := ⟨false, false, false, false, false⟩ } } 0 0 false)) ∧
      (s.takesCommand .restart → exec .restart s = .next (s.responding 0 0 true)))

/-- R171: a byte of the response is begun only while MLCTS is asserted; a byte begun is sent whole, and MLCTS is
examined again for the next; after the sixth the parser is IDLE. R166: while a byte is being sent MLTX carries its
frame of eleven bits: a start bit, the 8 data bits with the least significant first, a parity bit that makes the
number of ones among data and parity even, and a stop bit. With no byte begun, and while RSTn is asserted (R179), the
line rests at the stop level. The model's own: a step of the transmitter that finds no byte begun changes nothing (log
1). -/
def Obligations.ResponsesAreSentUnderFlowControl : Prop :=
  (∀ (s : State), (¬ s.running → s.mltxByte = none) ∧ (∀ b, s.mltxByte = some b → ∃ d0 d1 d2 d3 d4 d5 d6 d7 p : Bool,
        s.mltxFrame = [.start, .bit d0, .bit d1, .bit d2, .bit d3, .bit d4, .bit d5, .bit d6, .bit d7, .bit p, .stop] ∧
        (∀ k, k < 8 → [d0, d1, d2, d3, d4, d5, d6, d7][k]? = some (b.getLsbD k)) ∧
        [d0, d1, d2, d3, d4, d5, d6, d7, p].count true % 2 = 0) ∧
      (s.mltxByte = none → s.mltxFrame = [])) ∧
  ∀ (s : State), s.running →
    (∀ rest begun r, s.link.parser = .responding rest begun r → exec .mlctsAsserted s = .next { s with
      pins := { s.pins with mlctsAsserted := true }, link := { s.link with parser := .responding rest true r } }) ∧
    ((∀ rest begun r, s.link.parser ≠ .responding rest begun r) →
      exec .mlctsAsserted s = .next { s with pins := { s.pins with mlctsAsserted := true } }) ∧
    exec .mlctsDeasserted s = .next { s with pins := { s.pins with mlctsAsserted := false } } ∧
    (∀ a b rest r, s.link.parser = .responding (a :: b :: rest) true r → s.mltxByte = some a ∧
      exec .responseByteSent s = .next { s with
        link := { s.link with parser := .responding (b :: rest) s.pins.mlctsAsserted r } }) ∧
    (∀ rest r, s.link.parser = .responding rest false r → s.mltxByte = none ∧ exec .responseByteSent s = .next s ∧
      exec .responseSent s = .next s) ∧
    (∀ a, s.link.parser = .responding [a] true false →
      exec .responseSent s = .next { s with link := { s.link with parser := .idle } })

/-! ### Resets (spec/10) -/

/-- R127, R177 to R180: the assertion of RSTn abandons what is in flight, its slots becoming STALE with what they owe
kept, ends the lock, stops the timers and cuts the transmitter off. The release takes the straps, sets every other
block to its state after RSTn, and begins the STALE periods. R179: while RSTn is asserted no request is accepted,
taken or issued, no answer is presented, no timer expires, and the link receives and sends nothing: no command changes
anything but a response, the end of a STALE period that was running before, the two levels of MLCTS, which change that
pin alone, and the release (log 23 names the five). R127: a STALE period that has not started does not end. The
model's own: an assertion while RSTn is asserted and a release while it is not change nothing, and the blocks take
their state at the release (log 23); the loaded configuration, without meaning after a reset, is zero (log 7); reads
are numbered from 0 (log 20); a FREE line and an idle walker hold one fixed value (log 21). -/
def Obligations.RstnResetsEveryBlock : Prop :=
  ∀ (s : State) (cbsel : BitVec 3) (mlrate : BitVec 2),
    (s.running → ∃ t, exec .rstnAssert s = .next t ∧ t.pins = { s.pins with rstnAsserted := true } ∧
      (∀ i, t.down.slot i = ⟨if (s.down.slot i).state.issued then .stale false else (s.down.slot i).state,
        (s.down.slot i).owes⟩) ∧
      t.down.issueOrder = [] ∧ t.down.lock = none ∧ t.down.lastGranted = .mirror ∧
      (∀ i, (t.line i).age = none) ∧ t.link.parser = .idle ∧ t.link.gapRunning = false) ∧
    (¬ s.running → exec .rstnAssert s = .next s) ∧
    (s.running → exec (.rstnRelease cbsel mlrate) s = .next s) ∧
    (¬ s.running → ∃ t, exec (.rstnRelease cbsel mlrate) s = .next t ∧
      t.pins = { s.pins with rstnAsserted := false } ∧
      (∀ i, t.down.slot i = ⟨match (s.down.slot i).state with
        | .stale _ => .stale true
        | x => x, (s.down.slot i).owes⟩) ∧
      t.up = ⟨[], [], 0, false⟩ ∧ t.path = none ∧ t.walker = .idle ∧ t.windows = [] ∧
      t.acc = ⟨Vector.replicate 64 Line.empty, [], [], [], 0⟩ ∧
      t.ring = ⟨[], .inactive, 0, 4, false, 0, 0, .idle, false, none, none, none⟩ ∧
      t.cm = ⟨BitVec.ofNat 32 (cbsel.toNat * 0x2000000 + 0x10000), .bypass, .noCause, none, none, none, .idle, .stay,
        .unloaded, none, ⟨false, false, false, false, false, false, false, false⟩, ⟨none, false⟩,
        ⟨true, true, false, true, [⟨0, 0, none, 0⟩], none, false⟩, []⟩ ∧
      t.link = ⟨mlrate, [], false, false, false, false, false, .idle, ⟨false, false, false, false, false⟩⟩) ∧
    (∀ c : Instr, ¬ s.running → c.wf = true → c ≠ .mlctsAsserted → c ≠ .mlctsDeasserted →
      (∀ slot st data, c ≠ .downstreamResponse slot st data) → (∀ slot, c ≠ .stalePeriodExpiry slot) →
      (∀ cbsel mlrate, c ≠ .rstnRelease cbsel mlrate) → exec c s = .next s) ∧
    (¬ s.running → exec .mlctsAsserted s = .next { s with pins := { s.pins with mlctsAsserted := true } } ∧
      exec .mlctsDeasserted s = .next { s with pins := { s.pins with mlctsAsserted := false } }) ∧
    (∀ slot, (s.down.slot slot).state = .stale false → exec (.stalePeriodExpiry slot) s = .next s)

/-- R118, R127, R165, R176: when the last byte of RESTART's response has been sent, every block but the link takes its
state after the soft restart: the reads accepted are made ready with FAULT and all ones, the queue is emptied, what is
in flight is abandoned, the STALE periods count at once (log 24), and CB_BASE, the straps and the pins are kept. The
model's own: the loaded configuration, without meaning after a reset, is zero (log 7); the numbers of the reads go on
(log 20); a FREE line and an idle walker hold one fixed value (log 21). -/
def Obligations.TheSoftRestartFollowsItsResponse : Prop :=
  ∀ (s : State) (b : Byte), s.running → s.link.parser = .responding [b] true true →
    ∃ t, exec .responseSent s = .next t ∧
      t.up = { s.up with
        intake := []
        reads := s.up.reads.map fun (e : ReadEntry) => { e with answer := some ⟨.fault, List.replicate e.bytes 0xFF⟩ }
        restarting := !s.up.reads.isEmpty } ∧
      t.path = none ∧ t.walker = .idle ∧ t.windows = [] ∧ t.acc = ⟨Vector.replicate 64 Line.empty, [], [], [], 0⟩ ∧
      (∀ i, t.down.slot i = ⟨if (s.down.slot i).state.issued then .stale true else (s.down.slot i).state,
        (s.down.slot i).owes⟩) ∧
      t.down.issueOrder = [] ∧ t.down.lock = none ∧ t.down.lastGranted = .mirror ∧
      t.ring = ⟨[], .inactive, 0, 4, false, 0, 0, .idle, false, none, none, none⟩ ∧
      t.cm = ⟨s.cm.cbBase, .bypass, .noCause, none, none, none, .idle, .stay,
        .unloaded, none, ⟨false, false, false, false, false, false, false, false⟩, ⟨none, false⟩,
        ⟨true, true, false, true, [⟨0, 0, none, 0⟩], none, false⟩, []⟩ ∧
      t.link = { s.link with parser := .idle } ∧ t.pins = s.pins

/-! ### The laws -/

/-- The state after reset satisfies every law below. -/
def Obligations.ResetSatisfiesTheLaws : Prop :=
  Sizes State.reset ∧ WindowLaw State.reset ∧ LineLaw State.reset ∧ SlotLaw State.reset ∧ RingLaw State.reset.ring ∧
  FatalLaw State.reset ∧ ModeLaw State.reset

/-- R49, R82, R113, R114, R130, R163, R167: no step makes a collection longer than the size the spec gives it. R49,
R50: every step keeps the Window Cache within 32 entries, no two of them for the same window. -/
def Obligations.EveryStepKeepsSizesAndTheWindowLaw : Prop :=
  (∀ s t : State, step s = .next t → Sizes s → Sizes t) ∧
  (∀ s t : State, step s = .next t → WindowLaw s → WindowLaw t)

/-- R82, R83: every step keeps one line for a counter, pending operations on FILLING lines alone, and the use order. -/
def Obligations.EveryStepKeepsTheLineLaw : Prop :=
  ∀ s t : State, step s = .next t → LineLaw s → LineLaw t

/-- R123: every step keeps the issue order a list of the WAITING and HELD slots, the oldest of them WAITING. -/
def Obligations.EveryStepKeepsTheSlotLaw : Prop :=
  ∀ s t : State, step s = .next t → SlotLaw s → SlotLaw t

/-- R131, R132, R134, R138: every step keeps the ring's size between 2^4 and 2^12, its fill within its size, and a
record in hand only while there is room for it. -/
def Obligations.EveryStepKeepsTheRingLaw : Prop :=
  ∀ s t : State, step s = .next t → RingLaw s.ring → RingLaw t.ring

/-- R79, R108, R117, R147 to R150, R161: every step keeps the laws of the modes and of the fatal cause. -/
def Obligations.EveryStepKeepsTheModeLaws : Prop :=
  ∀ s t : State, step s = .next t → (FatalLaw s → FatalLaw t) ∧ (ModeLaw s → ModeLaw t)

/-- R147: from a state in which the law of the modes holds, a step makes the mode ACTIVE only from BYPASS, DRAINING
only from ACTIVE, HALTED only from ACTIVE or DRAINING, and BYPASS from ACTIVE only by a reset. -/
def Obligations.ModesChangeAsTheSpecSays : Prop :=
  ∀ (c : Instr) (s t : State), exec c s = .next t → ModeLaw s → t.cm.mode ≠ s.cm.mode →
    (t.cm.mode = .active → s.cm.mode = .bypass) ∧ (t.cm.mode = .draining → s.cm.mode = .active) ∧
    (t.cm.mode = .halted → s.cm.mode = .active ∨ s.cm.mode = .draining) ∧
    (t.cm.mode = .bypass → s.cm.mode = .active → c = .responseSent ∨ ∃ cbsel mlrate, c = .rstnRelease cbsel mlrate)
end

