-- ==== Sys2Proof/Laws/State.lean ====
section
/-! SUPPORT. What each block update leaves of each field of the state: one lemma for each field and update. -/

namespace Sys2Proof.Machine

section

variable (s : State)

/-! #### `withUp` -/

@[simp] theorem State.withUp_up (b : UpstreamPort) : (s.withUp b).up = b := rfl
@[simp] theorem State.withUp_path (b : UpstreamPort) : (s.withUp b).path = s.path := rfl
@[simp] theorem State.withUp_walker (b : UpstreamPort) : (s.withUp b).walker = s.walker := rfl
@[simp] theorem State.withUp_windows (b : UpstreamPort) : (s.withUp b).windows = s.windows := rfl
@[simp] theorem State.withUp_acc (b : UpstreamPort) : (s.withUp b).acc = s.acc := rfl
@[simp] theorem State.withUp_down (b : UpstreamPort) : (s.withUp b).down = s.down := rfl
@[simp] theorem State.withUp_ring (b : UpstreamPort) : (s.withUp b).ring = s.ring := rfl
@[simp] theorem State.withUp_cm (b : UpstreamPort) : (s.withUp b).cm = s.cm := rfl
@[simp] theorem State.withUp_link (b : UpstreamPort) : (s.withUp b).link = s.link := rfl
@[simp] theorem State.withUp_pins (b : UpstreamPort) : (s.withUp b).pins = s.pins := rfl
@[simp] theorem State.withUp_freeTick (b : UpstreamPort) : (s.withUp b).freeTick = s.freeTick := rfl
@[simp] theorem State.withUp_pending (b : UpstreamPort) : (s.withUp b).pending = s.pending := rfl

/-! #### `withPath` -/

@[simp] theorem State.withPath_up (b : Option Held) : (s.withPath b).up = s.up := rfl
@[simp] theorem State.withPath_path (b : Option Held) : (s.withPath b).path = b := rfl
@[simp] theorem State.withPath_walker (b : Option Held) : (s.withPath b).walker = s.walker := rfl
@[simp] theorem State.withPath_windows (b : Option Held) : (s.withPath b).windows = s.windows := rfl
@[simp] theorem State.withPath_acc (b : Option Held) : (s.withPath b).acc = s.acc := rfl
@[simp] theorem State.withPath_down (b : Option Held) : (s.withPath b).down = s.down := rfl
@[simp] theorem State.withPath_ring (b : Option Held) : (s.withPath b).ring = s.ring := rfl
@[simp] theorem State.withPath_cm (b : Option Held) : (s.withPath b).cm = s.cm := rfl
@[simp] theorem State.withPath_link (b : Option Held) : (s.withPath b).link = s.link := rfl
@[simp] theorem State.withPath_pins (b : Option Held) : (s.withPath b).pins = s.pins := rfl
@[simp] theorem State.withPath_freeTick (b : Option Held) : (s.withPath b).freeTick = s.freeTick := rfl
@[simp] theorem State.withPath_pending (b : Option Held) : (s.withPath b).pending = s.pending := rfl

/-! #### `withWalker` -/

@[simp] theorem State.withWalker_up (b : Walker) : (s.withWalker b).up = s.up := rfl
@[simp] theorem State.withWalker_path (b : Walker) : (s.withWalker b).path = s.path := rfl
@[simp] theorem State.withWalker_walker (b : Walker) : (s.withWalker b).walker = b := rfl
@[simp] theorem State.withWalker_windows (b : Walker) : (s.withWalker b).windows = s.windows := rfl
@[simp] theorem State.withWalker_acc (b : Walker) : (s.withWalker b).acc = s.acc := rfl
@[simp] theorem State.withWalker_down (b : Walker) : (s.withWalker b).down = s.down := rfl
@[simp] theorem State.withWalker_ring (b : Walker) : (s.withWalker b).ring = s.ring := rfl
@[simp] theorem State.withWalker_cm (b : Walker) : (s.withWalker b).cm = s.cm := rfl
@[simp] theorem State.withWalker_link (b : Walker) : (s.withWalker b).link = s.link := rfl
@[simp] theorem State.withWalker_pins (b : Walker) : (s.withWalker b).pins = s.pins := rfl
@[simp] theorem State.withWalker_freeTick (b : Walker) : (s.withWalker b).freeTick = s.freeTick := rfl
@[simp] theorem State.withWalker_pending (b : Walker) : (s.withWalker b).pending = s.pending := rfl

/-! #### `withWindows` -/

@[simp] theorem State.withWindows_up (b : List WindowEntry) : (s.withWindows b).up = s.up := rfl
@[simp] theorem State.withWindows_path (b : List WindowEntry) : (s.withWindows b).path = s.path := rfl
@[simp] theorem State.withWindows_walker (b : List WindowEntry) : (s.withWindows b).walker = s.walker := rfl
@[simp] theorem State.withWindows_windows (b : List WindowEntry) : (s.withWindows b).windows = b := rfl
@[simp] theorem State.withWindows_acc (b : List WindowEntry) : (s.withWindows b).acc = s.acc := rfl
@[simp] theorem State.withWindows_down (b : List WindowEntry) : (s.withWindows b).down = s.down := rfl
@[simp] theorem State.withWindows_ring (b : List WindowEntry) : (s.withWindows b).ring = s.ring := rfl
@[simp] theorem State.withWindows_cm (b : List WindowEntry) : (s.withWindows b).cm = s.cm := rfl
@[simp] theorem State.withWindows_link (b : List WindowEntry) : (s.withWindows b).link = s.link := rfl
@[simp] theorem State.withWindows_pins (b : List WindowEntry) : (s.withWindows b).pins = s.pins := rfl
@[simp] theorem State.withWindows_freeTick (b : List WindowEntry) : (s.withWindows b).freeTick = s.freeTick := rfl
@[simp] theorem State.withWindows_pending (b : List WindowEntry) : (s.withWindows b).pending = s.pending := rfl

/-! #### `withAcc` -/

@[simp] theorem State.withAcc_up (b : AccCache) : (s.withAcc b).up = s.up := rfl
@[simp] theorem State.withAcc_path (b : AccCache) : (s.withAcc b).path = s.path := rfl
@[simp] theorem State.withAcc_walker (b : AccCache) : (s.withAcc b).walker = s.walker := rfl
@[simp] theorem State.withAcc_windows (b : AccCache) : (s.withAcc b).windows = s.windows := rfl
@[simp] theorem State.withAcc_acc (b : AccCache) : (s.withAcc b).acc = b := rfl
@[simp] theorem State.withAcc_down (b : AccCache) : (s.withAcc b).down = s.down := rfl
@[simp] theorem State.withAcc_ring (b : AccCache) : (s.withAcc b).ring = s.ring := rfl
@[simp] theorem State.withAcc_cm (b : AccCache) : (s.withAcc b).cm = s.cm := rfl
@[simp] theorem State.withAcc_link (b : AccCache) : (s.withAcc b).link = s.link := rfl
@[simp] theorem State.withAcc_pins (b : AccCache) : (s.withAcc b).pins = s.pins := rfl
@[simp] theorem State.withAcc_freeTick (b : AccCache) : (s.withAcc b).freeTick = s.freeTick := rfl
@[simp] theorem State.withAcc_pending (b : AccCache) : (s.withAcc b).pending = s.pending := rfl

/-! #### `withDown` -/

@[simp] theorem State.withDown_up (b : DownPort) : (s.withDown b).up = s.up := rfl
@[simp] theorem State.withDown_path (b : DownPort) : (s.withDown b).path = s.path := rfl
@[simp] theorem State.withDown_walker (b : DownPort) : (s.withDown b).walker = s.walker := rfl
@[simp] theorem State.withDown_windows (b : DownPort) : (s.withDown b).windows = s.windows := rfl
@[simp] theorem State.withDown_acc (b : DownPort) : (s.withDown b).acc = s.acc := rfl
@[simp] theorem State.withDown_down (b : DownPort) : (s.withDown b).down = b := rfl
@[simp] theorem State.withDown_ring (b : DownPort) : (s.withDown b).ring = s.ring := rfl
@[simp] theorem State.withDown_cm (b : DownPort) : (s.withDown b).cm = s.cm := rfl
@[simp] theorem State.withDown_link (b : DownPort) : (s.withDown b).link = s.link := rfl
@[simp] theorem State.withDown_pins (b : DownPort) : (s.withDown b).pins = s.pins := rfl
@[simp] theorem State.withDown_freeTick (b : DownPort) : (s.withDown b).freeTick = s.freeTick := rfl
@[simp] theorem State.withDown_pending (b : DownPort) : (s.withDown b).pending = s.pending := rfl

/-! #### `withRing` -/

@[simp] theorem State.withRing_up (b : RingWriter) : (s.withRing b).up = s.up := rfl
@[simp] theorem State.withRing_path (b : RingWriter) : (s.withRing b).path = s.path := rfl
@[simp] theorem State.withRing_walker (b : RingWriter) : (s.withRing b).walker = s.walker := rfl
@[simp] theorem State.withRing_windows (b : RingWriter) : (s.withRing b).windows = s.windows := rfl
@[simp] theorem State.withRing_acc (b : RingWriter) : (s.withRing b).acc = s.acc := rfl
@[simp] theorem State.withRing_down (b : RingWriter) : (s.withRing b).down = s.down := rfl
@[simp] theorem State.withRing_ring (b : RingWriter) : (s.withRing b).ring = b := rfl
@[simp] theorem State.withRing_cm (b : RingWriter) : (s.withRing b).cm = s.cm := rfl
@[simp] theorem State.withRing_link (b : RingWriter) : (s.withRing b).link = s.link := rfl
@[simp] theorem State.withRing_pins (b : RingWriter) : (s.withRing b).pins = s.pins := rfl
@[simp] theorem State.withRing_freeTick (b : RingWriter) : (s.withRing b).freeTick = s.freeTick := rfl
@[simp] theorem State.withRing_pending (b : RingWriter) : (s.withRing b).pending = s.pending := rfl

/-! #### `withCm` -/

@[simp] theorem State.withCm_up (b : ControlMonitor) : (s.withCm b).up = s.up := rfl
@[simp] theorem State.withCm_path (b : ControlMonitor) : (s.withCm b).path = s.path := rfl
@[simp] theorem State.withCm_walker (b : ControlMonitor) : (s.withCm b).walker = s.walker := rfl
@[simp] theorem State.withCm_windows (b : ControlMonitor) : (s.withCm b).windows = s.windows := rfl
@[simp] theorem State.withCm_acc (b : ControlMonitor) : (s.withCm b).acc = s.acc := rfl
@[simp] theorem State.withCm_down (b : ControlMonitor) : (s.withCm b).down = s.down := rfl
@[simp] theorem State.withCm_ring (b : ControlMonitor) : (s.withCm b).ring = s.ring := rfl
@[simp] theorem State.withCm_cm (b : ControlMonitor) : (s.withCm b).cm = b := rfl
@[simp] theorem State.withCm_link (b : ControlMonitor) : (s.withCm b).link = s.link := rfl
@[simp] theorem State.withCm_pins (b : ControlMonitor) : (s.withCm b).pins = s.pins := rfl
@[simp] theorem State.withCm_freeTick (b : ControlMonitor) : (s.withCm b).freeTick = s.freeTick := rfl
@[simp] theorem State.withCm_pending (b : ControlMonitor) : (s.withCm b).pending = s.pending := rfl

/-! #### `withLink` -/

@[simp] theorem State.withLink_up (b : Link) : (s.withLink b).up = s.up := rfl
@[simp] theorem State.withLink_path (b : Link) : (s.withLink b).path = s.path := rfl
@[simp] theorem State.withLink_walker (b : Link) : (s.withLink b).walker = s.walker := rfl
@[simp] theorem State.withLink_windows (b : Link) : (s.withLink b).windows = s.windows := rfl
@[simp] theorem State.withLink_acc (b : Link) : (s.withLink b).acc = s.acc := rfl
@[simp] theorem State.withLink_down (b : Link) : (s.withLink b).down = s.down := rfl
@[simp] theorem State.withLink_ring (b : Link) : (s.withLink b).ring = s.ring := rfl
@[simp] theorem State.withLink_cm (b : Link) : (s.withLink b).cm = s.cm := rfl
@[simp] theorem State.withLink_link (b : Link) : (s.withLink b).link = b := rfl
@[simp] theorem State.withLink_pins (b : Link) : (s.withLink b).pins = s.pins := rfl
@[simp] theorem State.withLink_freeTick (b : Link) : (s.withLink b).freeTick = s.freeTick := rfl
@[simp] theorem State.withLink_pending (b : Link) : (s.withLink b).pending = s.pending := rfl

/-! #### `withPins` -/

@[simp] theorem State.withPins_up (b : Pins) : (s.withPins b).up = s.up := rfl
@[simp] theorem State.withPins_path (b : Pins) : (s.withPins b).path = s.path := rfl
@[simp] theorem State.withPins_walker (b : Pins) : (s.withPins b).walker = s.walker := rfl
@[simp] theorem State.withPins_windows (b : Pins) : (s.withPins b).windows = s.windows := rfl
@[simp] theorem State.withPins_acc (b : Pins) : (s.withPins b).acc = s.acc := rfl
@[simp] theorem State.withPins_down (b : Pins) : (s.withPins b).down = s.down := rfl
@[simp] theorem State.withPins_ring (b : Pins) : (s.withPins b).ring = s.ring := rfl
@[simp] theorem State.withPins_cm (b : Pins) : (s.withPins b).cm = s.cm := rfl
@[simp] theorem State.withPins_link (b : Pins) : (s.withPins b).link = s.link := rfl
@[simp] theorem State.withPins_pins (b : Pins) : (s.withPins b).pins = b := rfl
@[simp] theorem State.withPins_freeTick (b : Pins) : (s.withPins b).freeTick = s.freeTick := rfl
@[simp] theorem State.withPins_pending (b : Pins) : (s.withPins b).pending = s.pending := rfl

/-! #### `withTick` -/

@[simp] theorem State.withTick_up (b : Nat) : (s.withTick b).up = s.up := rfl
@[simp] theorem State.withTick_path (b : Nat) : (s.withTick b).path = s.path := rfl
@[simp] theorem State.withTick_walker (b : Nat) : (s.withTick b).walker = s.walker := rfl
@[simp] theorem State.withTick_windows (b : Nat) : (s.withTick b).windows = s.windows := rfl
@[simp] theorem State.withTick_acc (b : Nat) : (s.withTick b).acc = s.acc := rfl
@[simp] theorem State.withTick_down (b : Nat) : (s.withTick b).down = s.down := rfl
@[simp] theorem State.withTick_ring (b : Nat) : (s.withTick b).ring = s.ring := rfl
@[simp] theorem State.withTick_cm (b : Nat) : (s.withTick b).cm = s.cm := rfl
@[simp] theorem State.withTick_link (b : Nat) : (s.withTick b).link = s.link := rfl
@[simp] theorem State.withTick_pins (b : Nat) : (s.withTick b).pins = s.pins := rfl
@[simp] theorem State.withTick_freeTick (b : Nat) : (s.withTick b).freeTick = b := rfl
@[simp] theorem State.withTick_pending (b : Nat) : (s.withTick b).pending = s.pending := rfl

/-! #### `withPending` -/

@[simp] theorem State.withPending_up (b : List Instr) : (s.withPending b).up = s.up := rfl
@[simp] theorem State.withPending_path (b : List Instr) : (s.withPending b).path = s.path := rfl
@[simp] theorem State.withPending_walker (b : List Instr) : (s.withPending b).walker = s.walker := rfl
@[simp] theorem State.withPending_windows (b : List Instr) : (s.withPending b).windows = s.windows := rfl
@[simp] theorem State.withPending_acc (b : List Instr) : (s.withPending b).acc = s.acc := rfl
@[simp] theorem State.withPending_down (b : List Instr) : (s.withPending b).down = s.down := rfl
@[simp] theorem State.withPending_ring (b : List Instr) : (s.withPending b).ring = s.ring := rfl
@[simp] theorem State.withPending_cm (b : List Instr) : (s.withPending b).cm = s.cm := rfl
@[simp] theorem State.withPending_link (b : List Instr) : (s.withPending b).link = s.link := rfl
@[simp] theorem State.withPending_pins (b : List Instr) : (s.withPending b).pins = s.pins := rfl
@[simp] theorem State.withPending_freeTick (b : List Instr) : (s.withPending b).freeTick = s.freeTick := rfl
@[simp] theorem State.withPending_pending (b : List Instr) : (s.withPending b).pending = b := rfl

end

end Sys2Proof.Machine
end

