-- ==== Sys2Proof/Laws/Frames.lean ====
section
/-! SUPPORT. The frame of every shared operation: the fields of the state that it leaves as they are. Each lemma is
a conjunction that simp reads as one rewrite rule for each field. -/

namespace Sys2Proof.Machine

section

variable (s : State)

/-! ### The Control Monitor -/

@[simp] theorem State.setMode_frame (m : Mode) (c : FatalCause) :
    (s.setMode m c).up = s.up ∧ (s.setMode m c).path = s.path ∧ (s.setMode m c).walker = s.walker ∧
    (s.setMode m c).windows = s.windows ∧ (s.setMode m c).acc = s.acc ∧ (s.setMode m c).down = s.down ∧
    (s.setMode m c).ring = s.ring ∧ (s.setMode m c).link = s.link ∧ (s.setMode m c).pins = s.pins ∧
    (s.setMode m c).freeTick = s.freeTick ∧ (s.setMode m c).pending = s.pending := by simp [State.setMode]

@[simp] theorem State.setFlags_frame (f : StickyFlags) :
    (s.setFlags f).up = s.up ∧ (s.setFlags f).path = s.path ∧ (s.setFlags f).walker = s.walker ∧
    (s.setFlags f).windows = s.windows ∧ (s.setFlags f).acc = s.acc ∧ (s.setFlags f).down = s.down ∧
    (s.setFlags f).ring = s.ring ∧ (s.setFlags f).link = s.link ∧ (s.setFlags f).pins = s.pins ∧
    (s.setFlags f).freeTick = s.freeTick ∧ (s.setFlags f).pending = s.pending := by simp [State.setFlags]

@[simp] theorem State.raiseOverrun_frame :
    (s.raiseOverrun).up = s.up ∧ (s.raiseOverrun).path = s.path ∧ (s.raiseOverrun).walker = s.walker ∧
    (s.raiseOverrun).windows = s.windows ∧ (s.raiseOverrun).acc = s.acc ∧ (s.raiseOverrun).down = s.down ∧
    (s.raiseOverrun).ring = s.ring ∧ (s.raiseOverrun).link = s.link ∧ (s.raiseOverrun).pins = s.pins ∧
    (s.raiseOverrun).freeTick = s.freeTick ∧ (s.raiseOverrun).pending = s.pending := by simp [State.raiseOverrun]

@[simp] theorem State.raiseRingBroken_frame :
    (s.raiseRingBroken).up = s.up ∧ (s.raiseRingBroken).path = s.path ∧ (s.raiseRingBroken).walker = s.walker ∧
    (s.raiseRingBroken).windows = s.windows ∧ (s.raiseRingBroken).acc = s.acc ∧ (s.raiseRingBroken).down = s.down ∧
    (s.raiseRingBroken).ring = s.ring ∧ (s.raiseRingBroken).link = s.link ∧ (s.raiseRingBroken).pins = s.pins ∧
    (s.raiseRingBroken).freeTick = s.freeTick ∧ (s.raiseRingBroken).pending = s.pending :=
  by simp [State.raiseRingBroken]

@[simp] theorem State.raiseIndexError_frame :
    (s.raiseIndexError).up = s.up ∧ (s.raiseIndexError).path = s.path ∧ (s.raiseIndexError).walker = s.walker ∧
    (s.raiseIndexError).windows = s.windows ∧ (s.raiseIndexError).acc = s.acc ∧ (s.raiseIndexError).down = s.down ∧
    (s.raiseIndexError).ring = s.ring ∧ (s.raiseIndexError).link = s.link ∧ (s.raiseIndexError).pins = s.pins ∧
    (s.raiseIndexError).freeTick = s.freeTick ∧ (s.raiseIndexError).pending = s.pending :=
  by simp [State.raiseIndexError]

@[simp] theorem State.raiseDataLost_frame :
    (s.raiseDataLost).up = s.up ∧ (s.raiseDataLost).path = s.path ∧ (s.raiseDataLost).walker = s.walker ∧
    (s.raiseDataLost).windows = s.windows ∧ (s.raiseDataLost).acc = s.acc ∧ (s.raiseDataLost).down = s.down ∧
    (s.raiseDataLost).ring = s.ring ∧ (s.raiseDataLost).link = s.link ∧ (s.raiseDataLost).pins = s.pins ∧
    (s.raiseDataLost).freeTick = s.freeTick ∧ (s.raiseDataLost).pending = s.pending := by simp [State.raiseDataLost]

@[simp] theorem State.raiseDropped_frame :
    (s.raiseDropped).up = s.up ∧ (s.raiseDropped).path = s.path ∧ (s.raiseDropped).walker = s.walker ∧
    (s.raiseDropped).windows = s.windows ∧ (s.raiseDropped).acc = s.acc ∧ (s.raiseDropped).down = s.down ∧
    (s.raiseDropped).ring = s.ring ∧ (s.raiseDropped).link = s.link ∧ (s.raiseDropped).pins = s.pins ∧
    (s.raiseDropped).freeTick = s.freeTick ∧ (s.raiseDropped).pending = s.pending := by simp [State.raiseDropped]

@[simp] theorem State.raiseConfigError_frame :
    (s.raiseConfigError).up = s.up ∧ (s.raiseConfigError).path = s.path ∧ (s.raiseConfigError).walker = s.walker ∧
    (s.raiseConfigError).windows = s.windows ∧ (s.raiseConfigError).acc = s.acc ∧
    (s.raiseConfigError).down = s.down ∧ (s.raiseConfigError).ring = s.ring ∧ (s.raiseConfigError).link = s.link ∧
    (s.raiseConfigError).pins = s.pins ∧ (s.raiseConfigError).freeTick = s.freeTick ∧
    (s.raiseConfigError).pending = s.pending := by simp [State.raiseConfigError]

@[simp] theorem State.raiseMirrorFault_frame :
    (s.raiseMirrorFault).up = s.up ∧ (s.raiseMirrorFault).path = s.path ∧ (s.raiseMirrorFault).walker = s.walker ∧
    (s.raiseMirrorFault).windows = s.windows ∧ (s.raiseMirrorFault).acc = s.acc ∧
    (s.raiseMirrorFault).down = s.down ∧ (s.raiseMirrorFault).ring = s.ring ∧ (s.raiseMirrorFault).link = s.link ∧
    (s.raiseMirrorFault).pins = s.pins ∧ (s.raiseMirrorFault).freeTick = s.freeTick ∧
    (s.raiseMirrorFault).pending = s.pending := by simp [State.raiseMirrorFault]

@[simp] theorem State.setFatal_frame (b : Bool) :
    (s.setFatal b).up = s.up ∧ (s.setFatal b).path = s.path ∧ (s.setFatal b).walker = s.walker ∧
    (s.setFatal b).windows = s.windows ∧ (s.setFatal b).acc = s.acc ∧ (s.setFatal b).down = s.down ∧
    (s.setFatal b).ring = s.ring ∧ (s.setFatal b).link = s.link ∧ (s.setFatal b).pins = s.pins ∧
    (s.setFatal b).freeTick = s.freeTick ∧ (s.setFatal b).pending = s.pending := by simp [State.setFatal]

@[simp] theorem State.setLatch_frame (l : FaultLatch) :
    (s.setLatch l).up = s.up ∧ (s.setLatch l).path = s.path ∧ (s.setLatch l).walker = s.walker ∧
    (s.setLatch l).windows = s.windows ∧ (s.setLatch l).acc = s.acc ∧ (s.setLatch l).down = s.down ∧
    (s.setLatch l).ring = s.ring ∧ (s.setLatch l).link = s.link ∧ (s.setLatch l).pins = s.pins ∧
    (s.setLatch l).freeTick = s.freeTick ∧ (s.setLatch l).pending = s.pending := by simp [State.setLatch]

@[simp] theorem State.reportFault_frame (e : EventRecord) :
    (s.reportFault e).up = s.up ∧ (s.reportFault e).path = s.path ∧ (s.reportFault e).walker = s.walker ∧
    (s.reportFault e).windows = s.windows ∧ (s.reportFault e).acc = s.acc ∧ (s.reportFault e).down = s.down ∧
    (s.reportFault e).ring = s.ring ∧ (s.reportFault e).link = s.link ∧ (s.reportFault e).pins = s.pins ∧
    (s.reportFault e).freeTick = s.freeTick ∧ (s.reportFault e).pending = s.pending :=
  by simp only [State.reportFault]; split <;> simp

@[simp] theorem State.pushAck_frame (a : Ack) :
    (s.pushAck a).up = s.up ∧ (s.pushAck a).path = s.path ∧ (s.pushAck a).walker = s.walker ∧
    (s.pushAck a).windows = s.windows ∧ (s.pushAck a).acc = s.acc ∧ (s.pushAck a).down = s.down ∧
    (s.pushAck a).ring = s.ring ∧ (s.pushAck a).link = s.link ∧ (s.pushAck a).pins = s.pins ∧
    (s.pushAck a).freeTick = s.freeTick ∧ (s.pushAck a).pending = s.pending :=
  by simp only [State.pushAck]; split <;> simp

@[simp] theorem State.formAck_frame (a : Ack) :
    (s.formAck a).up = s.up ∧ (s.formAck a).path = s.path ∧ (s.formAck a).walker = s.walker ∧
    (s.formAck a).windows = s.windows ∧ (s.formAck a).acc = s.acc ∧ (s.formAck a).down = s.down ∧
    (s.formAck a).ring = s.ring ∧ (s.formAck a).link = s.link ∧ (s.formAck a).pins = s.pins ∧
    (s.formAck a).freeTick = s.freeTick ∧ (s.formAck a).pending = s.pending := by simp [State.formAck]

@[simp] theorem State.endRequest_frame (o : AckOutcome) (c : Option ConfigCode) :
    (s.endRequest o c).up = s.up ∧ (s.endRequest o c).path = s.path ∧ (s.endRequest o c).walker = s.walker ∧
    (s.endRequest o c).windows = s.windows ∧ (s.endRequest o c).acc = s.acc ∧ (s.endRequest o c).down = s.down ∧
    (s.endRequest o c).ring = s.ring ∧ (s.endRequest o c).link = s.link ∧ (s.endRequest o c).pins = s.pins ∧
    (s.endRequest o c).freeTick = s.freeTick ∧ (s.endRequest o c).pending = s.pending :=
  by simp only [State.endRequest]; split <;> simp

@[simp] theorem State.holdInForce_frame (h : Hold) :
    (s.holdInForce h).up = s.up ∧ (s.holdInForce h).path = s.path ∧ (s.holdInForce h).walker = s.walker ∧
    (s.holdInForce h).windows = s.windows ∧ (s.holdInForce h).acc = s.acc ∧ (s.holdInForce h).down = s.down ∧
    (s.holdInForce h).ring = s.ring ∧ (s.holdInForce h).link = s.link ∧ (s.holdInForce h).pins = s.pins ∧
    (s.holdInForce h).freeTick = s.freeTick ∧ (s.holdInForce h).pending = s.pending := by simp [State.holdInForce]

@[simp] theorem State.settleHold_frame :
    (s.settleHold).up = s.up ∧ (s.settleHold).path = s.path ∧ (s.settleHold).walker = s.walker ∧
    (s.settleHold).windows = s.windows ∧ (s.settleHold).acc = s.acc ∧ (s.settleHold).down = s.down ∧
    (s.settleHold).ring = s.ring ∧ (s.settleHold).link = s.link ∧ (s.settleHold).pins = s.pins ∧
    (s.settleHold).freeTick = s.freeTick ∧ (s.settleHold).pending = s.pending :=
  by simp only [State.settleHold]; split <;> simp

@[simp] theorem State.placeHold_frame (h : Hold) :
    (s.placeHold h).up = s.up ∧ (s.placeHold h).path = s.path ∧ (s.placeHold h).walker = s.walker ∧
    (s.placeHold h).windows = s.windows ∧ (s.placeHold h).acc = s.acc ∧ (s.placeHold h).down = s.down ∧
    (s.placeHold h).ring = s.ring ∧ (s.placeHold h).link = s.link ∧ (s.placeHold h).pins = s.pins ∧
    (s.placeHold h).freeTick = s.freeTick ∧ (s.placeHold h).pending = s.pending := by simp [State.placeHold]

@[simp] theorem State.releaseHold_frame :
    (s.releaseHold).up = s.up ∧ (s.releaseHold).path = s.path ∧ (s.releaseHold).walker = s.walker ∧
    (s.releaseHold).windows = s.windows ∧ (s.releaseHold).acc = s.acc ∧ (s.releaseHold).down = s.down ∧
    (s.releaseHold).ring = s.ring ∧ (s.releaseHold).link = s.link ∧ (s.releaseHold).pins = s.pins ∧
    (s.releaseHold).freeTick = s.freeTick ∧ (s.releaseHold).pending = s.pending := by simp [State.releaseHold]

@[simp] theorem State.clearStatus_frame :
    (s.clearStatus).up = s.up ∧ (s.clearStatus).path = s.path ∧ (s.clearStatus).walker = s.walker ∧
    (s.clearStatus).windows = s.windows ∧ (s.clearStatus).acc = s.acc ∧ (s.clearStatus).down = s.down ∧
    (s.clearStatus).ring = s.ring ∧ (s.clearStatus).link = s.link ∧ (s.clearStatus).pins = s.pins ∧
    (s.clearStatus).freeTick = s.freeTick ∧ (s.clearStatus).pending = s.pending := by simp [State.clearStatus]

/-! ### Event records, answers and the Request Path -/

@[simp] theorem State.handRecord_frame (e : EventRecord) :
    (s.handRecord e).up = s.up ∧ (s.handRecord e).path = s.path ∧ (s.handRecord e).walker = s.walker ∧
    (s.handRecord e).windows = s.windows ∧ (s.handRecord e).acc = s.acc ∧ (s.handRecord e).down = s.down ∧
    (s.handRecord e).link = s.link ∧ (s.handRecord e).pins = s.pins ∧ (s.handRecord e).freeTick = s.freeTick ∧
    (s.handRecord e).pending = s.pending := by simp only [State.handRecord]; (repeat' split) <;> simp

@[simp] theorem State.handRecords_frame (es : List EventRecord) :
    (s.handRecords es).up = s.up ∧ (s.handRecords es).path = s.path ∧ (s.handRecords es).walker = s.walker ∧
    (s.handRecords es).windows = s.windows ∧ (s.handRecords es).acc = s.acc ∧ (s.handRecords es).down = s.down ∧
    (s.handRecords es).link = s.link ∧ (s.handRecords es).pins = s.pins ∧ (s.handRecords es).freeTick = s.freeTick ∧
    (s.handRecords es).pending = s.pending := by
  unfold State.handRecords
  induction es generalizing s with
  | nil => simp
  | cons e es ih => simp [ih]

@[simp] theorem State.answerRead_frame (id : Nat) (a : Answer) :
    (s.answerRead id a).path = s.path ∧ (s.answerRead id a).walker = s.walker ∧
    (s.answerRead id a).windows = s.windows ∧ (s.answerRead id a).acc = s.acc ∧ (s.answerRead id a).down = s.down ∧
    (s.answerRead id a).ring = s.ring ∧ (s.answerRead id a).cm = s.cm ∧ (s.answerRead id a).link = s.link ∧
    (s.answerRead id a).pins = s.pins ∧ (s.answerRead id a).freeTick = s.freeTick ∧
    (s.answerRead id a).pending = s.pending := by simp [State.answerRead]

@[simp] theorem State.answerRequest_frame (r : Request) (a : Answer) :
    (s.answerRequest r a).path = s.path ∧ (s.answerRequest r a).walker = s.walker ∧
    (s.answerRequest r a).windows = s.windows ∧ (s.answerRequest r a).acc = s.acc ∧
    (s.answerRequest r a).down = s.down ∧ (s.answerRequest r a).ring = s.ring ∧ (s.answerRequest r a).cm = s.cm ∧
    (s.answerRequest r a).link = s.link ∧ (s.answerRequest r a).pins = s.pins ∧
    (s.answerRequest r a).freeTick = s.freeTick ∧ (s.answerRequest r a).pending = s.pending :=
  by simp only [State.answerRequest]; split <;> simp

@[simp] theorem State.finishPath_frame :
    (s.finishPath).up = s.up ∧ (s.finishPath).walker = s.walker ∧ (s.finishPath).windows = s.windows ∧
    (s.finishPath).acc = s.acc ∧ (s.finishPath).down = s.down ∧ (s.finishPath).ring = s.ring ∧
    (s.finishPath).link = s.link ∧ (s.finishPath).pins = s.pins ∧ (s.finishPath).freeTick = s.freeTick ∧
    (s.finishPath).pending = s.pending := by simp [State.finishPath]

@[simp] theorem State.keep_frame (r : Request) (st : Stage) :
    (s.keep r st).up = s.up ∧ (s.keep r st).walker = s.walker ∧ (s.keep r st).windows = s.windows ∧
    (s.keep r st).acc = s.acc ∧ (s.keep r st).down = s.down ∧ (s.keep r st).ring = s.ring ∧ (s.keep r st).cm = s.cm ∧
    (s.keep r st).link = s.link ∧ (s.keep r st).pins = s.pins ∧ (s.keep r st).freeTick = s.freeTick ∧
    (s.keep r st).pending = s.pending := by simp [State.keep]

@[simp] theorem State.refuse_frame (r : Request) :
    (s.refuse r).walker = s.walker ∧ (s.refuse r).windows = s.windows ∧ (s.refuse r).acc = s.acc ∧
    (s.refuse r).down = s.down ∧ (s.refuse r).ring = s.ring ∧ (s.refuse r).link = s.link ∧
    (s.refuse r).pins = s.pins ∧ (s.refuse r).freeTick = s.freeTick ∧ (s.refuse r).pending = s.pending :=
  by simp only [State.refuse]; split <;> simp

@[simp] theorem State.faultWith_frame (r : Request) (f : FaultInfo) :
    (s.faultWith r f).walker = s.walker ∧ (s.faultWith r f).windows = s.windows ∧ (s.faultWith r f).acc = s.acc ∧
    (s.faultWith r f).down = s.down ∧ (s.faultWith r f).link = s.link ∧ (s.faultWith r f).pins = s.pins ∧
    (s.faultWith r f).freeTick = s.freeTick ∧ (s.faultWith r f).pending = s.pending := by simp [State.faultWith]

/-! ### Lines of the Accumulator Cache -/

@[simp] theorem State.setLine_frame (i : Fin 64) (l : Line) :
    (s.setLine i l).up = s.up ∧ (s.setLine i l).path = s.path ∧ (s.setLine i l).walker = s.walker ∧
    (s.setLine i l).windows = s.windows ∧ (s.setLine i l).down = s.down ∧ (s.setLine i l).ring = s.ring ∧
    (s.setLine i l).cm = s.cm ∧ (s.setLine i l).link = s.link ∧ (s.setLine i l).pins = s.pins ∧
    (s.setLine i l).freeTick = s.freeTick ∧ (s.setLine i l).pending = s.pending := by simp [State.setLine]

@[simp] theorem State.touch_frame (i : Fin 64) :
    (s.touch i).up = s.up ∧ (s.touch i).path = s.path ∧ (s.touch i).walker = s.walker ∧
    (s.touch i).windows = s.windows ∧ (s.touch i).down = s.down ∧ (s.touch i).ring = s.ring ∧ (s.touch i).cm = s.cm ∧
    (s.touch i).link = s.link ∧ (s.touch i).pins = s.pins ∧ (s.touch i).freeTick = s.freeTick ∧
    (s.touch i).pending = s.pending := by simp [State.touch]

@[simp] theorem State.freeLine_frame (i : Fin 64) :
    (s.freeLine i).up = s.up ∧ (s.freeLine i).path = s.path ∧ (s.freeLine i).walker = s.walker ∧
    (s.freeLine i).windows = s.windows ∧ (s.freeLine i).down = s.down ∧ (s.freeLine i).ring = s.ring ∧
    (s.freeLine i).cm = s.cm ∧ (s.freeLine i).link = s.link ∧ (s.freeLine i).pins = s.pins ∧
    (s.freeLine i).freeTick = s.freeTick ∧ (s.freeLine i).pending = s.pending := by simp [State.freeLine]

@[simp] theorem State.startWriteBack_frame (e : Bool) (i : Fin 64) :
    (s.startWriteBack e i).up = s.up ∧ (s.startWriteBack e i).path = s.path ∧
    (s.startWriteBack e i).walker = s.walker ∧ (s.startWriteBack e i).windows = s.windows ∧
    (s.startWriteBack e i).down = s.down ∧ (s.startWriteBack e i).ring = s.ring ∧ (s.startWriteBack e i).cm = s.cm ∧
    (s.startWriteBack e i).link = s.link ∧ (s.startWriteBack e i).pins = s.pins ∧
    (s.startWriteBack e i).freeTick = s.freeTick ∧ (s.startWriteBack e i).pending = s.pending :=
  by simp [State.startWriteBack]

@[simp] theorem State.startAllDirty_frame (e : Bool) :
    (s.startAllDirty e).up = s.up ∧ (s.startAllDirty e).path = s.path ∧ (s.startAllDirty e).walker = s.walker ∧
    (s.startAllDirty e).windows = s.windows ∧ (s.startAllDirty e).down = s.down ∧ (s.startAllDirty e).ring = s.ring ∧
    (s.startAllDirty e).cm = s.cm ∧ (s.startAllDirty e).link = s.link ∧ (s.startAllDirty e).pins = s.pins ∧
    (s.startAllDirty e).pending = s.pending := by simp [State.startAllDirty]

@[simp] theorem State.setUpLine_frame (i : Fin 64) (b : Addr) (p : List PendingOp) (o : Origin) :
    (s.setUpLine i b p o).up = s.up ∧ (s.setUpLine i b p o).path = s.path ∧ (s.setUpLine i b p o).walker = s.walker ∧
    (s.setUpLine i b p o).windows = s.windows ∧ (s.setUpLine i b p o).down = s.down ∧
    (s.setUpLine i b p o).ring = s.ring ∧ (s.setUpLine i b p o).cm = s.cm ∧ (s.setUpLine i b p o).link = s.link ∧
    (s.setUpLine i b p o).pins = s.pins ∧ (s.setUpLine i b p o).freeTick = s.freeTick ∧
    (s.setUpLine i b p o).pending = s.pending := by simp [State.setUpLine]

@[simp] theorem State.applyOp_frame (op : PendingOp) (i : Fin 64) :
    (s.applyOp op i).up = s.up ∧ (s.applyOp op i).path = s.path ∧ (s.applyOp op i).walker = s.walker ∧
    (s.applyOp op i).windows = s.windows ∧ (s.applyOp op i).down = s.down ∧ (s.applyOp op i).link = s.link ∧
    (s.applyOp op i).pins = s.pins ∧ (s.applyOp op i).freeTick = s.freeTick ∧ (s.applyOp op i).pending = s.pending :=
  by simp [State.applyOp]

@[simp] theorem State.handOperation_frame (r : Request) (op : PendingOp) (b : Addr) :
    (s.handOperation r op b).up = s.up ∧ (s.handOperation r op b).walker = s.walker ∧
    (s.handOperation r op b).windows = s.windows ∧ (s.handOperation r op b).down = s.down ∧
    (s.handOperation r op b).link = s.link ∧ (s.handOperation r op b).pins = s.pins ∧
    (s.handOperation r op b).freeTick = s.freeTick ∧ (s.handOperation r op b).pending = s.pending := by
  simp only [State.handOperation, State.allocate]; (repeat' split) <;> simp

@[simp] theorem State.serveRead_frame (r : Request) (v : View) (b : Addr) :
    (s.serveRead r v b).walker = s.walker ∧ (s.serveRead r v b).windows = s.windows ∧
    (s.serveRead r v b).down = s.down ∧ (s.serveRead r v b).ring = s.ring ∧ (s.serveRead r v b).link = s.link ∧
    (s.serveRead r v b).pins = s.pins ∧ (s.serveRead r v b).freeTick = s.freeTick ∧
    (s.serveRead r v b).pending = s.pending := by simp only [State.serveRead]; (repeat' split) <;> simp

@[simp] theorem State.serveDrain_frame (r : Request) (o : Order) (b : Addr) :
    (s.serveDrain r o b).walker = s.walker ∧ (s.serveDrain r o b).windows = s.windows ∧
    (s.serveDrain r o b).down = s.down ∧ (s.serveDrain r o b).ring = s.ring ∧ (s.serveDrain r o b).link = s.link ∧
    (s.serveDrain r o b).pins = s.pins ∧ (s.serveDrain r o b).freeTick = s.freeTick ∧
    (s.serveDrain r o b).pending = s.pending := by
  simp only [State.serveDrain, State.allocate]; (repeat' split) <;> simp

@[simp] theorem State.settleLine_frame (w : Bool) (i : Fin 64) :
    (State.settleLine w s i).up = s.up ∧ (State.settleLine w s i).path = s.path ∧
    (State.settleLine w s i).walker = s.walker ∧ (State.settleLine w s i).windows = s.windows ∧
    (State.settleLine w s i).down = s.down ∧ (State.settleLine w s i).ring = s.ring ∧
    (State.settleLine w s i).cm = s.cm ∧ (State.settleLine w s i).link = s.link ∧
    (State.settleLine w s i).pins = s.pins ∧ (State.settleLine w s i).freeTick = s.freeTick ∧
    (State.settleLine w s i).pending = s.pending := by simp only [State.settleLine]; split <;> simp

@[simp] theorem State.settle_frame (w : Bool) (a : Addr) (n : Nat) :
    (s.settle w a n).up = s.up ∧ (s.settle w a n).path = s.path ∧ (s.settle w a n).walker = s.walker ∧
    (s.settle w a n).windows = s.windows ∧ (s.settle w a n).down = s.down ∧ (s.settle w a n).ring = s.ring ∧
    (s.settle w a n).cm = s.cm ∧ (s.settle w a n).link = s.link ∧ (s.settle w a n).pins = s.pins ∧
    (s.settle w a n).freeTick = s.freeTick ∧ (s.settle w a n).pending = s.pending := by
  unfold State.settle
  induction s.overlappedLines a n generalizing s with
  | nil => simp
  | cons i is ih => simp [ih]

@[simp] theorem State.flushLines_frame :
    (s.flushLines).up = s.up ∧ (s.flushLines).path = s.path ∧ (s.flushLines).walker = s.walker ∧
    (s.flushLines).windows = s.windows ∧ (s.flushLines).down = s.down ∧ (s.flushLines).ring = s.ring ∧
    (s.flushLines).cm = s.cm ∧ (s.flushLines).link = s.link ∧ (s.flushLines).pins = s.pins ∧
    (s.flushLines).pending = s.pending := by simp [State.flushLines]

@[simp] theorem State.flushCheck_frame :
    (s.flushCheck).up = s.up ∧ (s.flushCheck).path = s.path ∧ (s.flushCheck).walker = s.walker ∧
    (s.flushCheck).windows = s.windows ∧ (s.flushCheck).acc = s.acc ∧ (s.flushCheck).down = s.down ∧
    (s.flushCheck).ring = s.ring ∧ (s.flushCheck).link = s.link ∧ (s.flushCheck).pins = s.pins ∧
    (s.flushCheck).freeTick = s.freeTick ∧ (s.flushCheck).pending = s.pending :=
  by simp only [State.flushCheck]; (repeat' split) <;> simp

@[simp] theorem State.drainedCheck_frame :
    (s.drainedCheck).up = s.up ∧ (s.drainedCheck).path = s.path ∧ (s.drainedCheck).walker = s.walker ∧
    (s.drainedCheck).windows = s.windows ∧ (s.drainedCheck).acc = s.acc ∧ (s.drainedCheck).down = s.down ∧
    (s.drainedCheck).ring = s.ring ∧ (s.drainedCheck).link = s.link ∧ (s.drainedCheck).pins = s.pins ∧
    (s.drainedCheck).freeTick = s.freeTick ∧ (s.drainedCheck).pending = s.pending :=
  by simp only [State.drainedCheck]; split <;> simp

@[simp] theorem State.drainLine_frame (i : Fin 64) :
    (s.drainLine i).up = s.up ∧ (s.drainLine i).path = s.path ∧ (s.drainLine i).walker = s.walker ∧
    (s.drainLine i).windows = s.windows ∧ (s.drainLine i).down = s.down ∧ (s.drainLine i).ring = s.ring ∧
    (s.drainLine i).cm = s.cm ∧ (s.drainLine i).link = s.link ∧ (s.drainLine i).pins = s.pins ∧
    (s.drainLine i).freeTick = s.freeTick ∧ (s.drainLine i).pending = s.pending :=
  by simp only [State.drainLine]; (repeat' split) <;> simp

@[simp] theorem State.drainLines_frame :
    (s.drainLines).up = s.up ∧ (s.drainLines).path = s.path ∧ (s.drainLines).walker = s.walker ∧
    (s.drainLines).windows = s.windows ∧ (s.drainLines).down = s.down ∧ (s.drainLines).ring = s.ring ∧
    (s.drainLines).cm = s.cm ∧ (s.drainLines).link = s.link ∧ (s.drainLines).pins = s.pins ∧
    (s.drainLines).pending = s.pending := by simp [State.drainLines]

@[simp] theorem State.freezeCache_frame :
    (s.freezeCache).up = s.up ∧ (s.freezeCache).path = s.path ∧ (s.freezeCache).walker = s.walker ∧
    (s.freezeCache).windows = s.windows ∧ (s.freezeCache).down = s.down ∧ (s.freezeCache).ring = s.ring ∧
    (s.freezeCache).cm = s.cm ∧ (s.freezeCache).link = s.link ∧ (s.freezeCache).pins = s.pins ∧
    (s.freezeCache).freeTick = s.freeTick ∧ (s.freezeCache).pending = s.pending := by simp [State.freezeCache]

/-! ### The Window Cache and the course of a request -/

@[simp] theorem State.insertEntry_frame (e : WindowEntry) :
    (s.insertEntry e).up = s.up ∧ (s.insertEntry e).path = s.path ∧ (s.insertEntry e).walker = s.walker ∧
    (s.insertEntry e).acc = s.acc ∧ (s.insertEntry e).down = s.down ∧ (s.insertEntry e).ring = s.ring ∧
    (s.insertEntry e).cm = s.cm ∧ (s.insertEntry e).link = s.link ∧ (s.insertEntry e).pins = s.pins ∧
    (s.insertEntry e).freeTick = s.freeTick ∧ (s.insertEntry e).pending = s.pending :=
  by simp only [State.insertEntry]; split <;> simp

@[simp] theorem State.updateEntry_frame (e : WindowEntry) :
    (s.updateEntry e).up = s.up ∧ (s.updateEntry e).path = s.path ∧ (s.updateEntry e).walker = s.walker ∧
    (s.updateEntry e).acc = s.acc ∧ (s.updateEntry e).down = s.down ∧ (s.updateEntry e).ring = s.ring ∧
    (s.updateEntry e).cm = s.cm ∧ (s.updateEntry e).link = s.link ∧ (s.updateEntry e).pins = s.pins ∧
    (s.updateEntry e).freeTick = s.freeTick ∧ (s.updateEntry e).pending = s.pending :=
  by simp only [State.updateEntry]; split <;> simp

@[simp] theorem State.dropEntry_frame (w : Nat) :
    (s.dropEntry w).up = s.up ∧ (s.dropEntry w).path = s.path ∧ (s.dropEntry w).walker = s.walker ∧
    (s.dropEntry w).acc = s.acc ∧ (s.dropEntry w).down = s.down ∧ (s.dropEntry w).ring = s.ring ∧
    (s.dropEntry w).cm = s.cm ∧ (s.dropEntry w).link = s.link ∧ (s.dropEntry w).pins = s.pins ∧
    (s.dropEntry w).freeTick = s.freeTick ∧ (s.dropEntry w).pending = s.pending := by simp [State.dropEntry]

@[simp] theorem State.invalidate_frame (a : Addr) (n : Nat) :
    (s.invalidate a n).up = s.up ∧ (s.invalidate a n).path = s.path ∧ (s.invalidate a n).walker = s.walker ∧
    (s.invalidate a n).acc = s.acc ∧ (s.invalidate a n).down = s.down ∧ (s.invalidate a n).ring = s.ring ∧
    (s.invalidate a n).cm = s.cm ∧ (s.invalidate a n).link = s.link ∧ (s.invalidate a n).pins = s.pins ∧
    (s.invalidate a n).freeTick = s.freeTick ∧ (s.invalidate a n).pending = s.pending := by simp [State.invalidate]

@[simp] theorem State.startForward_frame (r : Request) (a : Addr) (d : Bool) :
    (s.startForward r a d).walker = s.walker ∧ (s.startForward r a d).windows = s.windows ∧
    (s.startForward r a d).down = s.down ∧ (s.startForward r a d).ring = s.ring ∧
    (s.startForward r a d).link = s.link ∧ (s.startForward r a d).pins = s.pins ∧
    (s.startForward r a d).freeTick = s.freeTick ∧ (s.startForward r a d).pending = s.pending :=
  by simp only [State.startForward]; split <;> simp

@[simp] theorem State.execute_frame (r : Request) (d : Descriptor) :
    (s.execute r d).walker = s.walker ∧ (s.execute r d).windows = s.windows ∧ (s.execute r d).down = s.down ∧
    (s.execute r d).link = s.link ∧ (s.execute r d).pins = s.pins ∧ (s.execute r d).freeTick = s.freeTick ∧
    (s.execute r d).pending = s.pending := by simp only [State.execute]; (repeat' split) <;> simp

@[simp] theorem State.beginLockedUpdate_frame (r : Request) (e : WindowEntry) :
    (s.beginLockedUpdate r e).up = s.up ∧ (s.beginLockedUpdate r e).windows = s.windows ∧
    (s.beginLockedUpdate r e).acc = s.acc ∧ (s.beginLockedUpdate r e).down = s.down ∧
    (s.beginLockedUpdate r e).ring = s.ring ∧ (s.beginLockedUpdate r e).cm = s.cm ∧
    (s.beginLockedUpdate r e).link = s.link ∧ (s.beginLockedUpdate r e).pins = s.pins ∧
    (s.beginLockedUpdate r e).freeTick = s.freeTick ∧ (s.beginLockedUpdate r e).pending = s.pending :=
  by simp [State.beginLockedUpdate]

@[simp] theorem State.judged_frame (r : Request) (e : WindowEntry) :
    (s.judged r e).windows = s.windows ∧ (s.judged r e).down = s.down ∧ (s.judged r e).link = s.link ∧
    (s.judged r e).pins = s.pins ∧ (s.judged r e).freeTick = s.freeTick ∧ (s.judged r e).pending = s.pending :=
  by simp only [State.judged]; (repeat' split) <;> simp

@[simp] theorem State.beginWalk_frame (r : Request) :
    (s.beginWalk r).up = s.up ∧ (s.beginWalk r).windows = s.windows ∧ (s.beginWalk r).acc = s.acc ∧
    (s.beginWalk r).down = s.down ∧ (s.beginWalk r).ring = s.ring ∧ (s.beginWalk r).cm = s.cm ∧
    (s.beginWalk r).link = s.link ∧ (s.beginWalk r).pins = s.pins ∧ (s.beginWalk r).freeTick = s.freeTick ∧
    (s.beginWalk r).pending = s.pending := by simp [State.beginWalk]

@[simp] theorem State.lookUp_frame (r : Request) :
    (s.lookUp r).down = s.down ∧ (s.lookUp r).link = s.link ∧ (s.lookUp r).pins = s.pins ∧
    (s.lookUp r).freeTick = s.freeTick ∧ (s.lookUp r).pending = s.pending :=
  by simp only [State.lookUp]; split <;> simp

@[simp] theorem State.sort_frame (r : Request) :
    (s.sort r).down = s.down ∧ (s.sort r).link = s.link ∧ (s.sort r).pins = s.pins ∧
    (s.sort r).freeTick = s.freeTick ∧ (s.sort r).pending = s.pending :=
  by simp only [State.sort]; (repeat' split) <;> simp

@[simp] theorem State.resumePath_frame :
    (s.resumePath).walker = s.walker ∧ (s.resumePath).windows = s.windows ∧ (s.resumePath).down = s.down ∧
    (s.resumePath).link = s.link ∧ (s.resumePath).pins = s.pins ∧ (s.resumePath).freeTick = s.freeTick ∧
    (s.resumePath).pending = s.pending := by simp only [State.resumePath]; split <;> simp

@[simp] theorem State.afterLine_frame (i : Fin 64) :
    (s.afterLine i).walker = s.walker ∧ (s.afterLine i).windows = s.windows ∧ (s.afterLine i).down = s.down ∧
    (s.afterLine i).link = s.link ∧ (s.afterLine i).pins = s.pins ∧ (s.afterLine i).freeTick = s.freeTick ∧
    (s.afterLine i).pending = s.pending := by simp [State.afterLine]

@[simp] theorem State.haltPath_frame :
    (s.haltPath).walker = s.walker ∧ (s.haltPath).windows = s.windows ∧ (s.haltPath).acc = s.acc ∧
    (s.haltPath).down = s.down ∧ (s.haltPath).ring = s.ring ∧ (s.haltPath).link = s.link ∧
    (s.haltPath).pins = s.pins ∧ (s.haltPath).freeTick = s.freeTick ∧ (s.haltPath).pending = s.pending :=
  by simp only [State.haltPath]; (repeat' split) <;> simp

@[simp] theorem State.dropDrainStart_frame :
    (s.dropDrainStart).up = s.up ∧ (s.dropDrainStart).path = s.path ∧ (s.dropDrainStart).walker = s.walker ∧
    (s.dropDrainStart).windows = s.windows ∧ (s.dropDrainStart).acc = s.acc ∧ (s.dropDrainStart).down = s.down ∧
    (s.dropDrainStart).ring = s.ring ∧ (s.dropDrainStart).link = s.link ∧ (s.dropDrainStart).pins = s.pins ∧
    (s.dropDrainStart).freeTick = s.freeTick ∧ (s.dropDrainStart).pending = s.pending :=
  by simp [State.dropDrainStart]

@[simp] theorem State.haltRequest_frame :
    (s.haltRequest).up = s.up ∧ (s.haltRequest).path = s.path ∧ (s.haltRequest).walker = s.walker ∧
    (s.haltRequest).windows = s.windows ∧ (s.haltRequest).acc = s.acc ∧ (s.haltRequest).down = s.down ∧
    (s.haltRequest).ring = s.ring ∧ (s.haltRequest).link = s.link ∧ (s.haltRequest).pins = s.pins ∧
    (s.haltRequest).freeTick = s.freeTick ∧ (s.haltRequest).pending = s.pending :=
  by simp only [State.haltRequest]; split <;> simp

@[simp] theorem State.enterHalted_frame :
    (s.enterHalted).walker = s.walker ∧ (s.enterHalted).down = s.down ∧ (s.enterHalted).ring = s.ring ∧
    (s.enterHalted).link = s.link ∧ (s.enterHalted).pins = s.pins ∧ (s.enterHalted).freeTick = s.freeTick ∧
    (s.enterHalted).pending = s.pending := by simp [State.enterHalted]

/-! ### Completions -/

@[simp] theorem State.completeForwardedRead_frame (id n : Nat) (st : Status) (d : Payload) :
    (s.completeForwardedRead id n st d).path = s.path ∧ (s.completeForwardedRead id n st d).walker = s.walker ∧
    (s.completeForwardedRead id n st d).windows = s.windows ∧ (s.completeForwardedRead id n st d).acc = s.acc ∧
    (s.completeForwardedRead id n st d).down = s.down ∧ (s.completeForwardedRead id n st d).ring = s.ring ∧
    (s.completeForwardedRead id n st d).cm = s.cm ∧ (s.completeForwardedRead id n st d).link = s.link ∧
    (s.completeForwardedRead id n st d).pins = s.pins ∧ (s.completeForwardedRead id n st d).freeTick = s.freeTick ∧
    (s.completeForwardedRead id n st d).pending = s.pending :=
  by simp only [State.completeForwardedRead]; split <;> simp

@[simp] theorem State.completeCounterRead_frame (id : Nat) (v : View) (st : Status) (d : Payload) :
    (s.completeCounterRead id v st d).path = s.path ∧ (s.completeCounterRead id v st d).walker = s.walker ∧
    (s.completeCounterRead id v st d).windows = s.windows ∧ (s.completeCounterRead id v st d).acc = s.acc ∧
    (s.completeCounterRead id v st d).down = s.down ∧ (s.completeCounterRead id v st d).ring = s.ring ∧
    (s.completeCounterRead id v st d).cm = s.cm ∧ (s.completeCounterRead id v st d).link = s.link ∧
    (s.completeCounterRead id v st d).pins = s.pins ∧ (s.completeCounterRead id v st d).freeTick = s.freeTick ∧
    (s.completeCounterRead id v st d).pending = s.pending := by simp only [State.completeCounterRead]; split <;> simp

@[simp] theorem State.completeForwardedWrite_frame (o : Origin) (b : Option Addr) (st : Status) :
    (s.completeForwardedWrite o b st).up = s.up ∧ (s.completeForwardedWrite o b st).path = s.path ∧
    (s.completeForwardedWrite o b st).walker = s.walker ∧ (s.completeForwardedWrite o b st).windows = s.windows ∧
    (s.completeForwardedWrite o b st).acc = s.acc ∧ (s.completeForwardedWrite o b st).down = s.down ∧
    (s.completeForwardedWrite o b st).link = s.link ∧ (s.completeForwardedWrite o b st).pins = s.pins ∧
    (s.completeForwardedWrite o b st).freeTick = s.freeTick ∧
    (s.completeForwardedWrite o b st).pending = s.pending :=
  by simp only [State.completeForwardedWrite]; split <;> simp

@[simp] theorem State.walkFault_frame (r : Request) (f : FaultInfo) :
    (s.walkFault r f).windows = s.windows ∧ (s.walkFault r f).acc = s.acc ∧ (s.walkFault r f).down = s.down ∧
    (s.walkFault r f).link = s.link ∧ (s.walkFault r f).pins = s.pins ∧ (s.walkFault r f).freeTick = s.freeTick ∧
    (s.walkFault r f).pending = s.pending := by simp [State.walkFault]

@[simp] theorem State.completeDirRead_frame (r : Request) (st : Status) (d : Payload) :
    (s.completeDirRead r st d).windows = s.windows ∧ (s.completeDirRead r st d).acc = s.acc ∧
    (s.completeDirRead r st d).down = s.down ∧ (s.completeDirRead r st d).link = s.link ∧
    (s.completeDirRead r st d).pins = s.pins ∧ (s.completeDirRead r st d).freeTick = s.freeTick ∧
    (s.completeDirRead r st d).pending = s.pending := by simp only [State.completeDirRead]; (repeat' split) <;> simp

@[simp] theorem State.completeDescRead_frame (r : Request) (st : Status) (d : Payload) :
    (s.completeDescRead r st d).down = s.down ∧ (s.completeDescRead r st d).link = s.link ∧
    (s.completeDescRead r st d).pins = s.pins ∧ (s.completeDescRead r st d).freeTick = s.freeTick ∧
    (s.completeDescRead r st d).pending = s.pending := by simp only [State.completeDescRead]; (repeat' split) <;> simp

@[simp] theorem State.completeLockedRead_frame (r : Request) (st : Status) (d : Payload) :
    (s.completeLockedRead r st d).up = s.up ∧ (s.completeLockedRead r st d).path = s.path ∧
    (s.completeLockedRead r st d).windows = s.windows ∧ (s.completeLockedRead r st d).acc = s.acc ∧
    (s.completeLockedRead r st d).down = s.down ∧ (s.completeLockedRead r st d).ring = s.ring ∧
    (s.completeLockedRead r st d).cm = s.cm ∧ (s.completeLockedRead r st d).link = s.link ∧
    (s.completeLockedRead r st d).pins = s.pins ∧ (s.completeLockedRead r st d).freeTick = s.freeTick ∧
    (s.completeLockedRead r st d).pending = s.pending := by simp only [State.completeLockedRead]; split <;> simp

@[simp] theorem State.updateAfterFailure_frame (w : Walker) :
    (s.updateAfterFailure w).up = s.up ∧ (s.updateAfterFailure w).path = s.path ∧
    (s.updateAfterFailure w).walker = s.walker ∧ (s.updateAfterFailure w).acc = s.acc ∧
    (s.updateAfterFailure w).down = s.down ∧ (s.updateAfterFailure w).ring = s.ring ∧
    (s.updateAfterFailure w).cm = s.cm ∧ (s.updateAfterFailure w).link = s.link ∧
    (s.updateAfterFailure w).pins = s.pins ∧ (s.updateAfterFailure w).freeTick = s.freeTick ∧
    (s.updateAfterFailure w).pending = s.pending := by simp only [State.updateAfterFailure]; split <;> simp

@[simp] theorem State.answerWaiter_frame (w : Option (Request × View)) (a : View → Answer) :
    (s.answerWaiter w a).walker = s.walker ∧ (s.answerWaiter w a).windows = s.windows ∧
    (s.answerWaiter w a).acc = s.acc ∧ (s.answerWaiter w a).down = s.down ∧ (s.answerWaiter w a).ring = s.ring ∧
    (s.answerWaiter w a).link = s.link ∧ (s.answerWaiter w a).pins = s.pins ∧
    (s.answerWaiter w a).freeTick = s.freeTick ∧ (s.answerWaiter w a).pending = s.pending := by
  unfold State.answerWaiter; split <;> simp

@[simp] theorem State.flushDirty_frame (i : Fin 64) :
    (s.flushDirty i).up = s.up ∧ (s.flushDirty i).path = s.path ∧ (s.flushDirty i).walker = s.walker ∧
    (s.flushDirty i).windows = s.windows ∧ (s.flushDirty i).down = s.down ∧ (s.flushDirty i).ring = s.ring ∧
    (s.flushDirty i).cm = s.cm ∧ (s.flushDirty i).link = s.link ∧ (s.flushDirty i).pins = s.pins ∧
    (s.flushDirty i).freeTick = s.freeTick ∧ (s.flushDirty i).pending = s.pending :=
  by simp only [State.flushDirty]; split <;> simp

@[simp] theorem State.fillOkay_frame (i : Fin 64) (d : Payload) :
    (s.fillOkay i d).walker = s.walker ∧ (s.fillOkay i d).windows = s.windows ∧ (s.fillOkay i d).down = s.down ∧
    (s.fillOkay i d).link = s.link ∧ (s.fillOkay i d).pins = s.pins ∧ (s.fillOkay i d).freeTick = s.freeTick ∧
    (s.fillOkay i d).pending = s.pending := by simp only [State.fillOkay]; split <;> simp

@[simp] theorem State.fillError_frame (i : Fin 64) :
    (s.fillError i).walker = s.walker ∧ (s.fillError i).windows = s.windows ∧ (s.fillError i).down = s.down ∧
    (s.fillError i).link = s.link ∧ (s.fillError i).pins = s.pins ∧ (s.fillError i).freeTick = s.freeTick ∧
    (s.fillError i).pending = s.pending := by simp [State.fillError]

@[simp] theorem State.redirtied_frame (i : Fin 64) :
    (s.redirtied i).up = s.up ∧ (s.redirtied i).path = s.path ∧ (s.redirtied i).walker = s.walker ∧
    (s.redirtied i).windows = s.windows ∧ (s.redirtied i).down = s.down ∧ (s.redirtied i).ring = s.ring ∧
    (s.redirtied i).cm = s.cm ∧ (s.redirtied i).link = s.link ∧ (s.redirtied i).pins = s.pins ∧
    (s.redirtied i).freeTick = s.freeTick ∧ (s.redirtied i).pending = s.pending :=
  by simp only [State.redirtied]; split <;> simp

@[simp] theorem State.writeBackOkay_frame (i : Fin 64) :
    (s.writeBackOkay i).walker = s.walker ∧ (s.writeBackOkay i).windows = s.windows ∧
    (s.writeBackOkay i).down = s.down ∧ (s.writeBackOkay i).link = s.link ∧ (s.writeBackOkay i).pins = s.pins ∧
    (s.writeBackOkay i).freeTick = s.freeTick ∧ (s.writeBackOkay i).pending = s.pending :=
  by simp only [State.writeBackOkay]; (repeat' split) <;> simp

@[simp] theorem State.writeBackError_frame (i : Fin 64) :
    (s.writeBackError i).walker = s.walker ∧ (s.writeBackError i).down = s.down ∧
    (s.writeBackError i).link = s.link ∧ (s.writeBackError i).pins = s.pins ∧
    (s.writeBackError i).freeTick = s.freeTick ∧ (s.writeBackError i).pending = s.pending :=
  by simp only [State.writeBackError]; split <;> simp

@[simp] theorem State.completeFill_frame (i : Fin 64) (st : Status) (d : Payload) :
    (s.completeFill i st d).walker = s.walker ∧ (s.completeFill i st d).windows = s.windows ∧
    (s.completeFill i st d).down = s.down ∧ (s.completeFill i st d).link = s.link ∧
    (s.completeFill i st d).pins = s.pins ∧ (s.completeFill i st d).freeTick = s.freeTick ∧
    (s.completeFill i st d).pending = s.pending := by simp only [State.completeFill]; (repeat' split) <;> simp

@[simp] theorem State.completeWriteBack_frame (i : Fin 64) (st : Status) :
    (s.completeWriteBack i st).walker = s.walker ∧ (s.completeWriteBack i st).down = s.down ∧
    (s.completeWriteBack i st).link = s.link ∧ (s.completeWriteBack i st).pins = s.pins ∧
    (s.completeWriteBack i st).freeTick = s.freeTick ∧ (s.completeWriteBack i st).pending = s.pending :=
  by simp only [State.completeWriteBack]; (repeat' split) <;> simp

@[simp] theorem State.configFailed_frame (c : ConfigCode) :
    (s.configFailed c).up = s.up ∧ (s.configFailed c).path = s.path ∧ (s.configFailed c).walker = s.walker ∧
    (s.configFailed c).windows = s.windows ∧ (s.configFailed c).acc = s.acc ∧ (s.configFailed c).down = s.down ∧
    (s.configFailed c).ring = s.ring ∧ (s.configFailed c).link = s.link ∧ (s.configFailed c).pins = s.pins ∧
    (s.configFailed c).freeTick = s.freeTick ∧ (s.configFailed c).pending = s.pending := by simp [State.configFailed]

@[simp] theorem State.startRing_frame (a : ConfigArea) :
    (s.startRing a).up = s.up ∧ (s.startRing a).path = s.path ∧ (s.startRing a).walker = s.walker ∧
    (s.startRing a).windows = s.windows ∧ (s.startRing a).acc = s.acc ∧ (s.startRing a).down = s.down ∧
    (s.startRing a).link = s.link ∧ (s.startRing a).pins = s.pins ∧ (s.startRing a).freeTick = s.freeTick ∧
    (s.startRing a).pending = s.pending := by simp [State.startRing]

@[simp] theorem State.activateLoaded_frame (a : ConfigArea) :
    (s.activateLoaded a).up = s.up ∧ (s.activateLoaded a).path = s.path ∧ (s.activateLoaded a).walker = s.walker ∧
    (s.activateLoaded a).windows = s.windows ∧ (s.activateLoaded a).down = s.down ∧
    (s.activateLoaded a).link = s.link ∧ (s.activateLoaded a).pins = s.pins ∧
    (s.activateLoaded a).freeTick = s.freeTick ∧ (s.activateLoaded a).pending = s.pending :=
  by simp [State.activateLoaded]

@[simp] theorem State.restartLoaded_frame (a : ConfigArea) :
    (s.restartLoaded a).up = s.up ∧ (s.restartLoaded a).path = s.path ∧ (s.restartLoaded a).walker = s.walker ∧
    (s.restartLoaded a).windows = s.windows ∧ (s.restartLoaded a).acc = s.acc ∧ (s.restartLoaded a).down = s.down ∧
    (s.restartLoaded a).link = s.link ∧ (s.restartLoaded a).pins = s.pins ∧
    (s.restartLoaded a).freeTick = s.freeTick ∧ (s.restartLoaded a).pending = s.pending :=
  by simp [State.restartLoaded]

@[simp] theorem State.completeConfigRead_frame (st : Status) (d : Payload) :
    (s.completeConfigRead st d).up = s.up ∧ (s.completeConfigRead st d).path = s.path ∧
    (s.completeConfigRead st d).walker = s.walker ∧ (s.completeConfigRead st d).windows = s.windows ∧
    (s.completeConfigRead st d).down = s.down ∧ (s.completeConfigRead st d).link = s.link ∧
    (s.completeConfigRead st d).pins = s.pins ∧ (s.completeConfigRead st d).freeTick = s.freeTick ∧
    (s.completeConfigRead st d).pending = s.pending :=
  by simp only [State.completeConfigRead]; (repeat' split) <;> simp

@[simp] theorem State.breakRing_frame :
    (s.breakRing).up = s.up ∧ (s.breakRing).path = s.path ∧ (s.breakRing).walker = s.walker ∧
    (s.breakRing).windows = s.windows ∧ (s.breakRing).acc = s.acc ∧ (s.breakRing).down = s.down ∧
    (s.breakRing).link = s.link ∧ (s.breakRing).pins = s.pins ∧ (s.breakRing).freeTick = s.freeTick ∧
    (s.breakRing).pending = s.pending := by simp [State.breakRing]

@[simp] theorem State.zeroWriteDone_frame (z : Option ZeroWrite) :
    (s.zeroWriteDone z).up = s.up ∧ (s.zeroWriteDone z).path = s.path ∧ (s.zeroWriteDone z).walker = s.walker ∧
    (s.zeroWriteDone z).windows = s.windows ∧ (s.zeroWriteDone z).acc = s.acc ∧ (s.zeroWriteDone z).down = s.down ∧
    (s.zeroWriteDone z).link = s.link ∧ (s.zeroWriteDone z).pins = s.pins ∧
    (s.zeroWriteDone z).freeTick = s.freeTick ∧ (s.zeroWriteDone z).pending = s.pending :=
  by simp only [State.zeroWriteDone]; split <;> simp

@[simp] theorem State.completeRecordWrite_frame (st : Status) :
    (s.completeRecordWrite st).up = s.up ∧ (s.completeRecordWrite st).path = s.path ∧
    (s.completeRecordWrite st).walker = s.walker ∧ (s.completeRecordWrite st).windows = s.windows ∧
    (s.completeRecordWrite st).acc = s.acc ∧ (s.completeRecordWrite st).down = s.down ∧
    (s.completeRecordWrite st).link = s.link ∧ (s.completeRecordWrite st).pins = s.pins ∧
    (s.completeRecordWrite st).freeTick = s.freeTick ∧ (s.completeRecordWrite st).pending = s.pending :=
  by simp only [State.completeRecordWrite]; (repeat' split) <;> simp

@[simp] theorem State.completeProducedWrite_frame (st : Status) :
    (s.completeProducedWrite st).up = s.up ∧ (s.completeProducedWrite st).path = s.path ∧
    (s.completeProducedWrite st).walker = s.walker ∧ (s.completeProducedWrite st).windows = s.windows ∧
    (s.completeProducedWrite st).acc = s.acc ∧ (s.completeProducedWrite st).down = s.down ∧
    (s.completeProducedWrite st).link = s.link ∧ (s.completeProducedWrite st).pins = s.pins ∧
    (s.completeProducedWrite st).freeTick = s.freeTick ∧ (s.completeProducedWrite st).pending = s.pending :=
  by simp only [State.completeProducedWrite]; (repeat' split) <;> simp

@[simp] theorem State.completeMirrorWrite_frame (st : Status) :
    (s.completeMirrorWrite st).up = s.up ∧ (s.completeMirrorWrite st).path = s.path ∧
    (s.completeMirrorWrite st).walker = s.walker ∧ (s.completeMirrorWrite st).windows = s.windows ∧
    (s.completeMirrorWrite st).acc = s.acc ∧ (s.completeMirrorWrite st).down = s.down ∧
    (s.completeMirrorWrite st).ring = s.ring ∧ (s.completeMirrorWrite st).link = s.link ∧
    (s.completeMirrorWrite st).pins = s.pins ∧ (s.completeMirrorWrite st).freeTick = s.freeTick ∧
    (s.completeMirrorWrite st).pending = s.pending := by simp only [State.completeMirrorWrite]; split <;> simp

end

end Sys2Proof.Machine
end

