-- ==== Sys2Proof/Laws/Ops.lean ====
section
/-! SUPPORT. What the shared operations do, once each: raising a flag, lines of the Accumulator Cache, the sorted
lists of lines, holds, and the guard of the management commands. -/

namespace Sys2Proof.Machine

/-! ### Raising a flag -/

theorem StickyFlags.overrun_changes (f : StickyFlags) :
    decide ({ f with overrun := true } ≠ f) = !f.overrun := by
  cases f with | mk a b c d e g h i => cases a <;> simp

theorem StickyFlags.ringBroken_changes (f : StickyFlags) :
    decide ({ f with ringBroken := true } ≠ f) = !f.ringBroken := by
  cases f with | mk a b c d e g h i => cases b <;> simp

theorem StickyFlags.indexError_changes (f : StickyFlags) :
    decide ({ f with indexError := true } ≠ f) = !f.indexError := by
  cases f with | mk a b c d e g h i => cases c <;> simp

theorem StickyFlags.dataLost_changes (f : StickyFlags) :
    decide ({ f with dataLost := true } ≠ f) = !f.dataLost := by
  cases f with | mk a b c d e g h i => cases d <;> simp

theorem StickyFlags.dropped_changes (f : StickyFlags) :
    decide ({ f with dropped := true } ≠ f) = !f.dropped := by
  cases f with | mk a b c d e g h i => cases e <;> simp

theorem StickyFlags.configError_changes (f : StickyFlags) :
    decide ({ f with configError := true } ≠ f) = !f.configError := by
  cases f with | mk a b c d e g h i => cases g <;> simp

theorem StickyFlags.mirrorFault_changes (f : StickyFlags) :
    decide ({ f with mirrorFault := true } ≠ f) = !f.mirrorFault := by
  cases f with | mk a b c d e g h i => cases h <;> simp

/-- OVERRUN is raised; STATUS becomes pending if it was clear. -/
theorem State.raiseOverrun_eq (s : State) : s.raiseOverrun = { s with cm := { s.cm with
    flags := { s.cm.flags with overrun := true }
    mirror := { s.cm.mirror with statusPending := s.cm.mirror.statusPending || !s.cm.flags.overrun } } } := by
  simp only [State.raiseOverrun, State.setFlags, State.withCm, StickyFlags.overrun_changes]

/-- RING_BROKEN is raised; STATUS becomes pending if it was clear. -/
theorem State.raiseRingBroken_eq (s : State) : s.raiseRingBroken = { s with cm := { s.cm with
    flags := { s.cm.flags with ringBroken := true }
    mirror := { s.cm.mirror with statusPending := s.cm.mirror.statusPending || !s.cm.flags.ringBroken } } } := by
  simp only [State.raiseRingBroken, State.setFlags, State.withCm, StickyFlags.ringBroken_changes]

/-- INDEX_ERROR is raised; STATUS becomes pending if it was clear. -/
theorem State.raiseIndexError_eq (s : State) : s.raiseIndexError = { s with cm := { s.cm with
    flags := { s.cm.flags with indexError := true }
    mirror := { s.cm.mirror with statusPending := s.cm.mirror.statusPending || !s.cm.flags.indexError } } } := by
  simp only [State.raiseIndexError, State.setFlags, State.withCm, StickyFlags.indexError_changes]

/-- DATA_LOST is raised; STATUS becomes pending if it was clear. -/
theorem State.raiseDataLost_eq (s : State) : s.raiseDataLost = { s with cm := { s.cm with
    flags := { s.cm.flags with dataLost := true }
    mirror := { s.cm.mirror with statusPending := s.cm.mirror.statusPending || !s.cm.flags.dataLost } } } := by
  simp only [State.raiseDataLost, State.setFlags, State.withCm, StickyFlags.dataLost_changes]

/-- DROPPED is raised; STATUS becomes pending if it was clear. -/
theorem State.raiseDropped_eq (s : State) : s.raiseDropped = { s with cm := { s.cm with
    flags := { s.cm.flags with dropped := true }
    mirror := { s.cm.mirror with statusPending := s.cm.mirror.statusPending || !s.cm.flags.dropped } } } := by
  simp only [State.raiseDropped, State.setFlags, State.withCm, StickyFlags.dropped_changes]

/-- CONFIG_ERROR is raised; STATUS becomes pending if it was clear. -/
theorem State.raiseConfigError_eq (s : State) : s.raiseConfigError = { s with cm := { s.cm with
    flags := { s.cm.flags with configError := true }
    mirror := { s.cm.mirror with statusPending := s.cm.mirror.statusPending || !s.cm.flags.configError } } } := by
  simp only [State.raiseConfigError, State.setFlags, State.withCm, StickyFlags.configError_changes]

/-- MIRROR_FAULT is raised; STATUS becomes pending if it was clear. -/
theorem State.raiseMirrorFault_eq (s : State) : s.raiseMirrorFault = { s with cm := { s.cm with
    flags := { s.cm.flags with mirrorFault := true }
    mirror := { s.cm.mirror with statusPending := s.cm.mirror.statusPending || !s.cm.flags.mirrorFault } } } := by
  simp only [State.raiseMirrorFault, State.setFlags, State.withCm, StickyFlags.mirrorFault_changes]

/-! ### Lines -/

@[simp] theorem AccCache.line_mapLines (c : AccCache) (f : Fin 64 → Line → Line) (i : Fin 64) :
    (c.mapLines f).line i = f i (c.line i) := by
  simp [AccCache.mapLines, AccCache.line]

@[simp] theorem AccCache.line_setLine (c : AccCache) (i j : Fin 64) (l : Line) :
    (c.setLine i l).line j = if i = j then l else c.line j := by
  simp [AccCache.setLine, AccCache.line, Vector.getElem_set, Fin.ext_iff]

@[simp] theorem AccCache.line_touch (c : AccCache) (i j : Fin 64) : (c.touch i).line j = c.line j := rfl

@[simp] theorem State.line_setLine (s : State) (i j : Fin 64) (l : Line) :
    (s.setLine i l).line j = if i = j then l else s.line j := AccCache.line_setLine s.acc i j l

@[simp] theorem State.line_touch (s : State) (i j : Fin 64) : (s.touch i).line j = s.line j := rfl

@[simp] theorem State.line_freeLine (s : State) (i j : Fin 64) :
    (s.freeLine i).line j = if i = j then Line.empty else s.line j := AccCache.line_setLine s.acc i j Line.empty

@[simp] theorem State.line_startWriteBack (s : State) (evict : Bool) (i j : Fin 64) :
    (s.startWriteBack evict i).line j = if i = j then (s.line i).startWrite evict else s.line j :=
  AccCache.line_setLine s.acc i j _

/-- A write-back that has ended with REDIRTY set leaves its line DIRTY, and the other lines as they were (R93). -/
@[simp] theorem State.line_redirtied (s : State) (i j : Fin 64) :
    (s.redirtied i).line j = if i = j then
      (s.line i).written .dirty s.startedAge ((s.line i).flushMark && !(s.line i).covers) else s.line j := by
  simp only [State.redirtied]; split <;> simp

/-- Two caches with the same lines agree on every line. -/
theorem AccCache.line_congr {c d : AccCache} (h : c.lines = d.lines) (i : Fin 64) : c.line i = d.line i := by
  simp [AccCache.line, h]

/-! ### Slots -/

@[simp] theorem DownPort.slot_setSlot (d : DownPort) (i j : Fin 8) (x : Slot) :
    (d.setSlot i x).slot j = if i = j then x else d.slot j := by
  simp [DownPort.setSlot, DownPort.slot, Vector.getElem_set, Fin.ext_iff]

@[simp] theorem DownPort.slot_mapSlots (d : DownPort) (f : Slot → Slot) (i : Fin 8) :
    (d.mapSlots f).slot i = f (d.slot i) := by
  simp [DownPort.mapSlots, DownPort.slot]

/-! ### Sorted lists of lines -/

theorem insertBy_perm (key : Fin 64 → Nat) (i : Fin 64) (is : List (Fin 64)) : (insertBy key i is).Perm (i :: is) := by
  induction is with
  | nil => exact List.Perm.refl _
  | cons j js ih =>
    unfold insertBy
    split
    · exact List.Perm.refl _
    · exact (ih.cons j).trans (List.Perm.swap i j js)

/-- Sorting keeps the lines, whatever the key. -/
theorem sortBy_perm (key : Fin 64 → Nat) (is : List (Fin 64)) : (sortBy key is).Perm is := by
  induction is with
  | nil => exact List.Perm.refl _
  | cons i is ih => exact (insertBy_perm key i _).trans (ih.cons i)

@[simp] theorem mem_sortBy (key : Fin 64 → Nat) (is : List (Fin 64)) (i : Fin 64) : i ∈ sortBy key is ↔ i ∈ is :=
  (sortBy_perm key is).mem_iff

/-! ### The management commands -/

/-- A management command that may be carried out is carried out. -/
theorem State.onCommand_taken {c : LinkCommand} {act : State → State} {s : State} (h : s.takesCommand c) :
    s.onCommand c act = act s := by
  obtain ⟨hr, hp⟩ := h
  simp only [State.running] at hr
  rcases hp with hp | hp <;> simp [State.onCommand, hr, hp]

theorem foldl_add_byte (bytes : List Byte) (x : Byte) : bytes.foldl (· + ·) x = x + bytes.sum := by
  induction bytes generalizing x with
  | nil => simp
  | cons b bs ih => simp only [List.foldl_cons, List.sum_cons, ih, BitVec.add_assoc]

/-- The check byte is the sum of the bytes before it (R170). -/
theorem checkSum_eq_sum (bytes : List Byte) : checkSum bytes = bytes.sum := by
  simp [checkSum, foldl_add_byte]

/-! ### Holds -/

/-- With no hold placed nothing takes effect. -/
theorem State.settleHold_of_none {s : State} (h : s.cm.placed = none) : s.settleHold = s := by
  simp [State.settleHold, h]

/-- With no hold placed, releasing the hold in force only ends it. -/
theorem State.releaseHold_of_none {s : State} (h : s.cm.placed = none) :
    s.releaseHold = { s with cm := { s.cm with hold := none } } := by
  simp [State.releaseHold, State.settleHold, State.withCm, h]

/-! ### Records and characters -/

/-- What RING_TAKE_RECORD can do (R133): nothing, with an empty queue; take the head record in hand, into an ACTIVE ring
that is not full; drop every record with OVERRUN, for a full ring; or drop every record without a flag. -/
theorem State.takeRecord_cases (s : State) :
    (s.ring.queue = [] ∧ s.takeRecord = s) ∨
    (∃ e rest, s.ring.queue = e :: rest ∧ s.ring.state = .active ∧ s.ring.isFull = false ∧
      s.takeRecord = { s with ring := { s.ring with
        queue := rest, phase := .record, issued := false, inHand := some e } }) ∨
    (s.ring.state = .active ∧ s.ring.isFull = true ∧
      s.takeRecord = State.raiseOverrun { s with ring := { s.ring with queue := [] } }) ∨
    (s.ring.state ≠ .active ∧ s.takeRecord = { s with ring := { s.ring with queue := [] } }) := by
  cases hq : s.ring.queue with
  | nil => exact .inl ⟨rfl, by simp [State.takeRecord, hq]⟩
  | cons e rest =>
    cases hs : s.ring.state with
    | inactive => exact .inr (.inr (.inr ⟨nofun, by simp [State.takeRecord, State.dropRecords, State.withRing, hq, hs]⟩))
    | broken => exact .inr (.inr (.inr ⟨nofun, by simp [State.takeRecord, State.dropRecords, State.withRing, hq, hs]⟩))
    | active =>
      cases hf : s.ring.isFull with
      | true => exact .inr (.inr (.inl ⟨rfl, rfl, by simp [State.takeRecord, State.dropRecords, State.withRing, hq, hs, hf]⟩))
      | false => exact .inr (.inl ⟨e, rest, rfl, rfl, rfl, by simp [State.takeRecord, State.withRing, hq, hs, hf]⟩)

/-- A character is eleven bit times on the line (R166). -/
@[simp] theorem characterFrame_length (data : Byte) : (characterFrame data).length = 11 := by
  simp [characterFrame]

/-- The parity bit that is sent makes the number of ones even, so the receiver finds no parity error (R166). -/
theorem oddParity_self (data : Byte) : oddParity data (oddParity data false) = false := by
  revert data; decide +kernel

end Sys2Proof.Machine
end

