-- ==== Sys2Proof/Laws/Traffic.lean ====
section
/-! SUPPORT. What settling does to the lines and the write-back queue (R101 to R103), and what a completion leaves of the
Downstream Port (R123). -/

namespace Sys2Proof.Machine

/-! ### Sorted lists of lines -/

theorem insertBy_sorted (key : Fin 64 → Nat) (i : Fin 64) (is : List (Fin 64))
    (h : is.Pairwise fun a b => key a ≤ key b) : (insertBy key i is).Pairwise fun a b => key a ≤ key b := by
  induction is with
  | nil => simp [insertBy]
  | cons j js ih =>
    have hj := List.pairwise_cons.1 h
    unfold insertBy
    split
    · rename_i hij
      refine List.pairwise_cons.2 ⟨fun b hb => ?_, h⟩
      rcases List.mem_cons.1 hb with rfl | hb
      · exact hij
      · exact le_trans hij (hj.1 b hb)
    · rename_i hij
      refine List.pairwise_cons.2 ⟨fun b hb => ?_, ih hj.2⟩
      rcases List.mem_cons.1 ((insertBy_perm key i js).mem_iff.1 hb) with rfl | hb
      · omega
      · exact hj.1 b hb

/-- The lines come out in rising order of the key. -/
theorem sortBy_sorted (key : Fin 64 → Nat) (is : List (Fin 64)) :
    (sortBy key is).Pairwise fun a b => key a ≤ key b := by
  induction is with
  | nil => simp [sortBy]
  | cons i is ih => exact insertBy_sorted key i _ ih

/-! ### Settling -/

/-- What settling makes of a line the access overlaps (R102, R103). -/
def Line.settled (write : Bool) (l : Line) : Line :=
  match l.state, write with
  | .clean, true => Line.empty
  | .dirty, w => l.startWrite w
  | .writing, true => { l with evict := true }
  | _, _ => l

/-- The settling action on one line changes the cache alone: that line, the write-back queue if it was DIRTY, and the use
order if it was CLEAN under a write. -/
theorem State.settleLine_spec (write : Bool) (s : State) (i : Fin 64) :
    ∃ c, State.settleLine write s i = s.withAcc c ∧
      (∀ j, c.line j = if i = j then (s.line i).settled write else s.line j) ∧
      c.writeQueue = s.acc.writeQueue ++ (if (s.line i).state = .dirty then [i] else []) ∧
      c.fillQueue = s.acc.fillQueue ∧ c.ageInterval = s.acc.ageInterval ∧
      c.order = s.acc.order.filter fun k => !(decide (k = i) && write && decide ((s.line i).state = .clean)) := by
  unfold State.settleLine Line.settled
  cases hs : (s.line i).state <;> cases write <;> simp only [hs]
  all_goals first
    | exact ⟨s.acc, rfl, fun j => by by_cases h : i = j <;> simp [h, State.line], by simp, rfl, rfl, by simp⟩
    | refine ⟨_, rfl, fun j => AccCache.line_setLine _ _ _ _, ?_, rfl, rfl, ?_⟩ <;> simp [AccCache.setLine]

/-- Settling a set of lines one after another treats each as it stood before (R101). -/
theorem State.settleLines_spec (write : Bool) (is : List (Fin 64)) (s : State) (h : is.Nodup) :
    ∃ c, is.foldl (State.settleLine write) s = s.withAcc c ∧
      (∀ j, c.line j = if j ∈ is then (s.line j).settled write else s.line j) ∧
      c.writeQueue = s.acc.writeQueue ++ is.filter (fun i => decide ((s.line i).state = .dirty)) ∧
      c.fillQueue = s.acc.fillQueue ∧ c.ageInterval = s.acc.ageInterval ∧
      c.order = s.acc.order.filter fun k => !(decide (k ∈ is) && write && decide ((s.line k).state = .clean)) := by
  induction is generalizing s with
  | nil => exact ⟨s.acc, rfl, fun j => by simp [State.line], by simp, rfl, rfl, by simp⟩
  | cons i is ih =>
    obtain ⟨c, hc, hl, hw, hf, ha, ho⟩ := State.settleLine_spec write s i
    have hn := List.nodup_cons.1 h
    obtain ⟨d, hd, hl', hw', hf', ha', ho'⟩ := ih (s.withAcc c) hn.2
    have hk : ∀ k ∈ is, c.line k = s.line k := fun k hk => by rw [hl k, if_neg (by rintro rfl; exact hn.1 hk)]
    refine ⟨d, by rw [List.foldl_cons, hc, hd]; rfl, fun j => ?_, ?_, hf'.trans hf, ha'.trans ha, ?_⟩
    · rw [hl' j]
      show (if j ∈ is then (c.line j).settled write else c.line j) = _
      rw [hl j]
      by_cases hij : i = j
      · subst hij; simp [hn.1]
      · simp [hij, Ne.symm hij]
    · rw [hw']
      show c.writeQueue ++ List.filter (fun k => decide ((c.line k).state = .dirty)) is = _
      rw [List.filter_congr fun k h => by rw [hk k h], hw]
      by_cases hdirty : (s.line i).state = .dirty <;> simp [hdirty]
    · rw [ho']
      show c.order.filter (fun k => !(decide (k ∈ is) && write && decide ((c.line k).state = .clean))) = _
      rw [ho, List.filter_filter]
      apply List.filter_congr
      intro k _
      rw [hl k]
      by_cases hik : i = k
      · subst hik; simp [hn.1]
      · simp [hik, Ne.symm hik]

/-- The lines an access overlaps are listed once each, in rising order of BACKING (R101). -/
theorem State.overlappedLines_spec (s : State) (addr : Addr) (n : Nat) :
    (s.overlappedLines addr n).Nodup ∧ (∀ i, i ∈ s.overlappedLines addr n ↔ (s.line i).overlapped addr n = true) ∧
    (s.overlappedLines addr n).Pairwise fun i j => (s.line i).backing.toNat ≤ (s.line j).backing.toNat :=
  ⟨((sortBy_perm _ _).nodup_iff).2 ((List.nodup_finRange 64).filter _), fun i => by simp [State.overlappedLines],
    sortBy_sorted _ _⟩

/-- An access clear of every line that is not FREE overlaps none. -/
theorem State.not_overlapped_of_clearOf {s : State} {addr : Addr} {n : Nat} (h : s.clearOf addr n) (i : Fin 64) :
    (s.line i).overlapped addr n = false := by
  rcases h i with h | h
  · simp [Line.overlapped, h]
  · simp only [Line.overlapped, overlaps, Bool.and_eq_false_iff, decide_eq_false_iff_not]
    right; omega

/-- An access clear of every line that is not FREE needs no settling (R101). -/
theorem State.settle_of_clearOf {s : State} {addr : Addr} {n : Nat} (h : s.clearOf addr n) (write : Bool) :
    s.settle write addr n = s := by
  simp [State.settle, State.overlappedLines, State.not_overlapped_of_clearOf h, sortBy]

/-! ### Completions and the port -/

/-- Two ports with the same slots agree on every slot. -/
theorem DownPort.slot_congr {c d : DownPort} (h : c.slots = d.slots) (i : Fin 8) : c.slot i = d.slot i := by
  simp [DownPort.slot, h]

/-- A completion delivered to its requester leaves the slots and the issue order. -/
theorem State.complete_port (s : State) (p : Purpose) (st : Status) (data : Payload) :
    (s.complete p st data).down.slots = s.down.slots ∧
    (s.complete p st data).down.issueOrder = s.down.issueOrder := by
  cases p
  case unlockingWrite =>
    simp only [State.complete, State.forWalk]
    repeat' split
    all_goals simp [State.completeUnlockingWrite]
    all_goals repeat' split
    all_goals simp [State.updateFailed, State.unlock, State.updateAfterFailure]
    all_goals repeat' split
    all_goals simp
  case release =>
    simp only [State.complete, State.forWalk]
    repeat' split
    all_goals simp [State.updateFailed, State.unlock]
  all_goals simp only [State.complete, State.forWalk]
  all_goals first
    | simp
    | (repeat' split) <;> simp

/-- The oldest request's completion leaves the other slots. -/
theorem State.completeOldest_slot (s : State) {i j : Fin 8} (x : SlotState) (p : Purpose) (st : Status)
    (data : Payload) (h : i ≠ j) : (s.completeOldest i x p st data).down.slot j = s.down.slot j := by
  rw [State.completeOldest, DownPort.slot_congr (State.complete_port _ p st data).1]
  show (s.down.setSlot i _).slot j = _
  simp [h]

/-- The oldest request leaves the issue order when it completes. -/
@[simp] theorem State.completeOldest_order (s : State) (i : Fin 8) (x : SlotState) (p : Purpose) (st : Status)
    (data : Payload) : (s.completeOldest i x p st data).down.issueOrder = s.down.issueOrder.tail := by
  rw [State.completeOldest, (State.complete_port _ p st data).2]; rfl

/-! ### What the requesters offer -/

/-- The walker offers the requests of the walk and of the locked update alone (R36 to R45). -/
theorem State.offerWalk_purpose {s : State} {q : MemRequest} {p : Purpose} (h : s.offerWalk = some (q, p)) :
    p ∈ [.dirRead, .descRead, .lockedRead, .unlockingWrite, Purpose.release] := by
  unfold State.offerWalk at h
  simp only at h
  split at h
  · cases h
  · revert h; cases s.walker.phase <;> simp <;> (try (rintro _ rfl; simp))

/-- What the Request Path offers (R117, R128): the walker's requests, the configuration read, a forwarded access or a
counter read. -/
theorem State.offerPath_purpose {s : State} {q : MemRequest} {p : Purpose} (h : s.offerPath = some (q, p)) :
    p ∈ [.dirRead, .descRead, .lockedRead, .unlockingWrite, .release, Purpose.configRead] ∨
    (∃ id n, p = .forwardedRead id n) ∨ (∃ o b, p = .forwardedWrite o b) ∨ (∃ id v, p = .counterRead id v) := by
  unfold State.offerPath at h
  repeat' split at h
  all_goals try cases h
  all_goals try simp
  · unfold forwardRequest at h
    split at h <;> cases h <;> simp
  · have := State.offerWalk_purpose h; simp at this; tauto

end Sys2Proof.Machine
end

