-- ==== Sys2Proof/Laws/Lines.lean ====
section
/-! SUPPORT. What the completion of a fill or a write-back does with its line (R85, R87, R89, R90, R93, R101). What
follows it, the retry of the request held and the report, is in Reports.lean. -/

namespace Sys2Proof.Machine

/-! ### The pending operations -/

/-- The record that the pending operations leave. -/
theorem applyAll_fst (backing : Addr) (ops : List PendingOp) (r : Record) :
    (applyAll backing ops r).1 = ops.foldl (fun x op => (evaluate op x).record) r := by
  induction ops generalizing r with
  | nil => rfl
  | cons op ops ih => simp [applyAll, ih]

/-- The pending operations as one fold, which gathers the THRESHOLD records. -/
theorem applyAll_fold (backing : Addr) (ops : List PendingOp) (r : Record) (es : List EventRecord) :
    ops.foldl (fun (x : Record × List EventRecord) op => ((evaluate op x.1).record,
      if (evaluate op x.1).fired then x.2 ++ [thresholdRecord op backing x.1 (evaluate op x.1).record] else x.2)) (r, es)
      = ((applyAll backing ops r).1, es ++ (applyAll backing ops r).2) := by
  induction ops generalizing r es with
  | nil => simp [applyAll]
  | cons op ops ih =>
    rw [List.foldl_cons, ih]
    cases h : (evaluate op r).fired <;> simp [applyAll, h]

/-! ### What goes on unchanged -/

/-- A record handed over leaves the way to BYPASS and the request in progress. -/
theorem State.handRecord_course (s : State) (e : EventRecord) :
    (s.handRecord e).cm.leaving = s.cm.leaving ∧ (s.handRecord e).cm.inProgress = s.cm.inProgress := by
  unfold State.handRecord
  (repeat' split) <;> simp [State.raiseOverrun, State.setFlags]

theorem State.handRecords_course (s : State) (es : List EventRecord) :
    (s.handRecords es).cm.leaving = s.cm.leaving ∧ (s.handRecords es).cm.inProgress = s.cm.inProgress := by
  unfold State.handRecords
  induction es generalizing s with
  | nil => exact ⟨rfl, rfl⟩
  | cons e es ih => exact ⟨(ih _).1.trans (s.handRecord_course e).1, (ih _).2.trans (s.handRecord_course e).2⟩

theorem State.settleHold_course (s : State) :
    s.settleHold.cm.leaving = s.cm.leaving ∧ s.settleHold.cm.inProgress = s.cm.inProgress := by
  unfold State.settleHold; split <;> simp [State.holdInForce]

theorem State.finishPath_course (s : State) :
    s.finishPath.cm.leaving = s.cm.leaving ∧ s.finishPath.cm.inProgress = s.cm.inProgress := settleHold_course _

theorem State.applyOp_course (s : State) (op : PendingOp) (i : Fin 64) :
    (s.applyOp op i).cm.leaving = s.cm.leaving ∧ (s.applyOp op i).cm.inProgress = s.cm.inProgress := by
  unfold State.applyOp
  exact ⟨(handRecords_course _ _).1.trans (by simp), (handRecords_course _ _).2.trans (by simp)⟩

theorem State.allocate_course (s : State) (backing : Addr) (pending : List PendingOp) (r : Request) (waiting : Stage)
    (taken : Fin 64 → State → State) (h : ∀ i u, (taken i u).cm.leaving = u.cm.leaving ∧
      (taken i u).cm.inProgress = u.cm.inProgress) :
    (s.allocate backing pending r waiting taken).cm.leaving = s.cm.leaving ∧
    (s.allocate backing pending r waiting taken).cm.inProgress = s.cm.inProgress := by
  unfold State.allocate
  split
  · exact h _ _
  · simp
  · simp

/-- An operation handed to the cache leaves the way to BYPASS and the request in progress. -/
theorem State.handOperation_course (r : Request) (op : PendingOp) (backing : Addr) (s : State) :
    (s.handOperation r op backing).cm.leaving = s.cm.leaving ∧
    (s.handOperation r op backing).cm.inProgress = s.cm.inProgress := by
  unfold State.handOperation
  split
  · exact allocate_course _ _ _ _ _ _ fun _ _ => finishPath_course _
  · simp only
    (repeat' split)
    · exact finishPath_course _
    · simp
    · exact ⟨(finishPath_course _).1.trans (applyOp_course _ _ _).1, (finishPath_course _).2.trans (applyOp_course _ _ _).2⟩

/-- A DRAIN read handed to the cache leaves the way to BYPASS and the request in progress. -/
theorem State.serveDrain_course (r : Request) (order : Order) (backing : Addr) (s : State) :
    (s.serveDrain r order backing).cm.leaving = s.cm.leaving ∧
    (s.serveDrain r order backing).cm.inProgress = s.cm.inProgress := by
  unfold State.serveDrain
  split
  · exact allocate_course _ _ _ _ _ _ fun _ _ => by simp
  · simp only
    split
    · simp
    · exact ⟨(finishPath_course _).1.trans (by simp), (finishPath_course _).2.trans (by simp)⟩

/-- Settling leaves the way to BYPASS and the request in progress. -/
theorem State.settle_course (write : Bool) (addr : Addr) (n : Nat) (s : State) :
    (s.settle write addr n).cm.leaving = s.cm.leaving ∧ (s.settle write addr n).cm.inProgress = s.cm.inProgress := by
  obtain ⟨c, hc, _⟩ := State.settleLines_spec write _ s (s.overlappedLines_spec addr n).1
  rw [State.settle, hc]; exact ⟨rfl, rfl⟩

/-- The retry of the request held leaves the way to BYPASS and the request in progress. -/
theorem State.resumePath_course (s : State) :
    s.resumePath.cm.leaving = s.cm.leaving ∧ s.resumePath.cm.inProgress = s.cm.inProgress := by
  unfold State.resumePath
  split
  · exact settle_course _ _ _ _
  · exact handOperation_course _ _ _ _
  · exact serveDrain_course _ _ _ _
  all_goals exact ⟨rfl, rfl⟩

/-! ### Finding a line or an entry, and acting on it at once -/

/-- A line in use whose backing address no other line in use has is the one found (R82). -/
theorem State.lineFor_eq_some {s : State} {i : Fin 64} (h : (s.line i).inUse)
    (hu : ∀ j, (s.line j).inUse → (s.line j).backing = (s.line i).backing → j = i) :
    s.lineFor (s.line i).backing = some i := by
  unfold State.lineFor
  cases hf : (List.finRange 64).find? fun j => (s.line j).state ≠ .free ∧ (s.line j).backing = (s.line i).backing with
  | none => exact absurd h (by simpa using List.find?_eq_none.1 hf i (List.mem_finRange i))
  | some j =>
    have hj := List.find?_some hf
    simp only [decide_eq_true_eq] at hj
    rw [hu j hj.1 hj.2]

/-- An entry of a cache with one entry for a window is the one found (R49, R51). -/
theorem findWindow_of_mem {es : List WindowEntry} {e : WindowEntry} (he : e ∈ es) (hn : (es.map (·.window)).Nodup) :
    findWindow e.window es = some e := by
  unfold findWindow
  induction es with
  | nil => cases he
  | cons a as ih =>
    simp only [List.map_cons, List.nodup_cons] at hn
    rcases List.mem_cons.1 he with rfl | h
    · simp
    · have : a.window ≠ e.window := fun hh => hn.1 (hh ▸ List.mem_map_of_mem h)
      simp [this, ih h hn.2]

/-- Every field of a CLEAN, DIRTY or WRITING line whose record is replaced at once (R86, R96, R100). -/
theorem Line.replaceRecord_eq (r : Record) (age : Option Nat) {l : Line} (h : l.state ∈ [.clean, .dirty, .writing]) :
    l.replaceRecord r age = { l with
      record := r
      state := if l.state = .clean then .dirty else l.state
      redirty := l.redirty || decide (l.state = .writing)
      age := if l.state ≠ .clean then l.age else age } := by
  obtain ⟨st, _, _, _, _, _, _, _, _, _, _⟩ := l
  simp only [List.mem_cons, List.not_mem_nil, or_false] at h
  rcases h with h | h | h <;> subst h <;> simp [Line.replaceRecord]

/-- A record is handed over whatever the lines are. -/
theorem State.handRecord_withAcc (s : State) (c : AccCache) (e : EventRecord) :
    (s.withAcc c).handRecord e = (s.handRecord e).withAcc c := by
  unfold State.handRecord
  by_cases hl : s.ring.queue.length < Config.recordDepth <;> cases h : s.ring.state <;> simp [hl, h] <;> rfl

theorem State.handRecords_withAcc (s : State) (c : AccCache) (es : List EventRecord) :
    (s.withAcc c).handRecords es = (s.handRecords es).withAcc c := by
  unfold State.handRecords
  induction es generalizing s with
  | nil => rfl
  | cons e es ih => simp only [List.foldl_cons, State.handRecord_withAcc, ih]

/-- All that an operation applied at once does (R86): the lines, and the record of a fired watch. -/
theorem State.applyOp_eq (op : PendingOp) (i : Fin 64) (s : State) :
    s.applyOp op i = (if (evaluate op (s.line i).record).fired then
        s.handRecord (thresholdRecord op (s.line i).backing (s.line i).record (evaluate op (s.line i).record).record)
      else s).withAcc ((s.acc.setLine i
        ((s.line i).replaceRecord (evaluate op (s.line i).record).record s.startedAge)).touch i) := by
  cases h : (evaluate op (s.line i).record).fired <;>
    simp only [State.applyOp, h, State.handRecords, if_true, Bool.false_eq_true, if_false, List.foldl_cons,
      List.foldl_nil]
  · rfl
  · exact s.handRecord_withAcc _ _

/-! ### A line that has changed -/

/-- The fields of a filled line (R89, R106). -/
theorem Line.filled_spec (fetched left : Record) (age : Option Nat) (l : Line) :
    (l.filled fetched left age).record = left ∧ (l.filled fetched left age).pending = [] ∧
    (l.filled fetched left age).backing = l.backing ∧
    (l.filled fetched left age).state = (if left = fetched then .clean else .dirty) ∧
    (l.filled fetched left age).age = (if left = fetched then none else age) ∧
    (l.filled fetched left age).flushMark = (if left = fetched then false else l.flushMark) := by
  unfold Line.filled; split <;> simp_all

/-- A timer started runs unless AGE_INTERVAL is 0 or the bridge is HALTED (R96, R109). -/
theorem State.startedAge_isSome (s : State) :
    s.startedAge.isSome = true ↔ s.acc.ageInterval ≠ 0 ∧ s.cm.mode ≠ .halted := by
  unfold State.startedAge; split <;> (simp_all; try tauto)

/-! ### The line's own steps, and what follows them -/

/-- The own steps of a line whose write-back completes OKAY, before what waits for it (R93). -/
def State.lineWritten (i : Fin 64) (s : State) : State :=
  let l := s.line i
  if l.redirty then (s.redirtied i).flushDirty i
  else if l.evict then s.freeLine i
  else s.setLine i (l.written .clean none false)

/-- The own steps of a line whose fill completes, with no read waiting on it, before what waits for it (R89, R90). -/
def State.lineFilled (i : Fin 64) (st : Status) (data : Payload) (s : State) : State :=
  match st with
  | .okay =>
    let l := s.line i
    let fetched := Record.ofLanes data
    let applied := applyAll l.backing l.pending fetched
    let s := s.setLine i (l.filled fetched applied.1 s.startedAge)
    let s := if l.pending.isEmpty then s else s.touch i
    (s.handRecords applied.2).flushDirty i
  | .error => (s.freeLine i).handRecord (fillLostRecord (s.line i))

theorem State.completeWriteBack_okay {s : State} {i : Fin 64} (h : (s.line i).state = .writing) :
    s.completeWriteBack i .okay = (s.lineWritten i).afterLine i := by
  rw [State.completeWriteBack, if_pos h]; rfl

theorem State.completeFill_noWaiter {s : State} {i : Fin 64} {st : Status} {data : Payload}
    (h : (s.line i).state = .filling) (hw : s.waiterOn i = none) :
    s.completeFill i st data = (s.lineFilled i st data).afterLine i := by
  unfold State.completeFill
  rw [if_pos h]
  cases st
  · simp only [State.fillOkay, hw, State.answerWaiter, State.lineFilled, Option.isNone_none, Bool.and_true]
  · simp only [State.fillError, hw, State.answerWaiter, State.lineFilled]

theorem State.lineWritten_course (i : Fin 64) (s : State) :
    (s.lineWritten i).cm.leaving = s.cm.leaving ∧ (s.lineWritten i).cm.inProgress = s.cm.inProgress ∧
    (s.lineWritten i).path = s.path := by
  unfold State.lineWritten; simp only; (repeat' split) <;> simp

theorem State.lineFilled_course (i : Fin 64) (st : Status) (data : Payload) (s : State) :
    (s.lineFilled i st data).cm.leaving = s.cm.leaving ∧ (s.lineFilled i st data).cm.inProgress = s.cm.inProgress ∧
    (s.lineFilled i st data).path = s.path := by
  cases st
  · simp only [State.lineFilled, State.flushDirty_frame]
    refine ⟨(handRecords_course _ _).1.trans ?_, (handRecords_course _ _).2.trans ?_, ?_⟩ <;>
      (try rw [(State.handRecords_frame _ _).2.1]) <;> split <;> simp
  · simp only [State.lineFilled]
    exact ⟨(handRecord_course _ _).1.trans (by simp), (handRecord_course _ _).2.trans (by simp), by simp⟩

/-! ### The request held plays no part in the line's own steps -/

theorem State.handRecord_withPath (s : State) (p : Option Held) (e : EventRecord) :
    (s.withPath p).handRecord e = (s.handRecord e).withPath p := by
  unfold State.handRecord
  simp only [State.withPath_ring]
  by_cases hl : s.ring.queue.length < Config.recordDepth <;> cases s.ring.state <;>
    simp only [hl, if_true, if_false] <;> rfl

theorem State.handRecords_withPath (s : State) (p : Option Held) (es : List EventRecord) :
    (s.withPath p).handRecords es = (s.handRecords es).withPath p := by
  unfold State.handRecords
  induction es generalizing s with
  | nil => rfl
  | cons e es ih => simp only [List.foldl_cons, State.handRecord_withPath, ih]

theorem State.flushDirty_withPath (s : State) (p : Option Held) (i : Fin 64) :
    (s.withPath p).flushDirty i = (s.flushDirty i).withPath p := by
  unfold State.flushDirty
  show (if (s.line i).state = .dirty ∧ (s.line i).flushMark = true then _ else _) = _
  split <;> rfl

theorem State.lineWritten_withPath (i : Fin 64) (s : State) (p : Option Held) :
    (s.withPath p).lineWritten i = (s.lineWritten i).withPath p := by
  have hr : (s.withPath p).redirtied i = (s.redirtied i).withPath p := by
    unfold State.redirtied
    show (if (s.line i).evict = true then _ else _) = _
    simp only
    split <;> rfl
  unfold State.lineWritten
  show (if (s.line i).redirty = true then _ else if (s.line i).evict = true then _ else _) = _
  simp only
  split
  · rw [hr, flushDirty_withPath]
  · split <;> rfl

theorem State.lineFilled_withPath (i : Fin 64) (st : Status) (data : Payload) (s : State) (p : Option Held) :
    (s.withPath p).lineFilled i st data = (s.lineFilled i st data).withPath p := by
  cases st
  · have hs : ∀ l, (s.withPath p).setLine i l = (s.setLine i l).withPath p := fun _ => rfl
    have ht : ∀ u : State, (u.withPath p).touch i = (u.touch i).withPath p := fun _ => rfl
    have ha : (s.withPath p).startedAge = s.startedAge := rfl
    have hl : (s.withPath p).line i = s.line i := rfl
    simp only [State.lineFilled, hl, hs, ha]
    split <;> simp only [ht, handRecords_withPath, flushDirty_withPath]
  · exact (s.freeLine i).handRecord_withPath p (fillLostRecord (s.line i))

end Sys2Proof.Machine
end

