-- ==== Sys2Proof/Laws/Reports.lean ====
section
/-! SUPPORT. What follows the completion of a fill or a write-back: the request held is tried again, and the end of a
flush or of the drain is reported (R85, R87, R101, R106 to R108, R149, R157). The retry and the report may be made in
either order, so that a request held is tried on what the completion leaves without it. -/

namespace Sys2Proof.Machine

/-! ### The end of the request in progress -/

/-- What the end of the request in progress makes of the Control Monitor (R152). -/
def ControlMonitor.requestEnded (o : AckOutcome) (k : Option ConfigCode) (c : ControlMonitor) : ControlMonitor :=
  match c.inProgress with
  | some (.block command tag) =>
    let a : Ack := ⟨command.code, tag, some o, ackDetail k⟩
    if c.mirror.acks.length < Config.ackDepth then
      { c with inProgress := none, mirror := { c.mirror with acks := c.mirror.acks ++ [a], lastAck := some a } }
    else
      { c with
        inProgress := none
        flags := { c.flags with mirrorFault := true }
        mirror := { c.mirror with
          lastAck := some a
          statusPending := c.mirror.statusPending || !c.flags.mirrorFault } }
  | some .link => { c with inProgress := none }
  | none => c

/-- The end of the request in progress changes the Control Monitor alone. -/
theorem State.endRequest_eq (s : State) (o : AckOutcome) (k : Option ConfigCode) :
    s.endRequest o k = s.withCm (s.cm.requestEnded o k) := by
  unfold State.endRequest ControlMonitor.requestEnded
  rcases s.cm.inProgress with _ | _ | _
  · rfl
  · simp only [State.formAck, State.pushAck, State.withCm_cm]
    by_cases h : s.cm.mirror.acks.length < Config.ackDepth
    · simp only [h, if_true]; rfl
    · simp only [h, if_false, State.raiseMirrorFault, State.setFlags, State.withCm_cm]
      cases hf : s.cm.flags.mirrorFault
      · have : ({ s.cm.flags with mirrorFault := true } : StickyFlags) ≠ s.cm.flags := by
          intro hh; rw [← hh] at hf; cases hf
        simp [this]; rfl
      · have : ({ s.cm.flags with mirrorFault := true } : StickyFlags) = s.cm.flags := by rw [← hf]
        simp [this]; rfl
  · rfl

/-- The end of the request in progress leaves the mode and the way to BYPASS, and no request. -/
theorem ControlMonitor.requestEnded_course (o : AckOutcome) (k : Option ConfigCode) (c : ControlMonitor) :
    (c.requestEnded o k).mode = c.mode ∧ (c.requestEnded o k).leaving = c.leaving ∧
    (c.requestEnded o k).inProgress = none := by
  unfold ControlMonitor.requestEnded
  split
  · split <;> exact ⟨rfl, rfl, rfl⟩
  · exact ⟨rfl, rfl, rfl⟩
  · rename_i h; exact ⟨rfl, rfl, h⟩

theorem State.endRequest_acc (s : State) (o : AckOutcome) (k : Option ConfigCode) :
    (s.endRequest o k).acc = s.acc := by simp

theorem State.endRequest_line (s : State) (o : AckOutcome) (k : Option ConfigCode) (i : Fin 64) :
    (s.endRequest o k).line i = s.line i := by rw [State.endRequest_eq]; rfl

theorem State.endRequest_lineFor (s : State) (o : AckOutcome) (k : Option ConfigCode) (backing : Addr) :
    (s.endRequest o k).lineFor backing = s.lineFor backing := by rw [State.endRequest_eq]; rfl

/-- A record is handed over alike before and after the end of the request in progress. -/
theorem State.handRecord_endRequest (s : State) (o : AckOutcome) (k : Option ConfigCode) (e : EventRecord) :
    (s.endRequest o k).handRecord e = (s.handRecord e).endRequest o k := by
  have ho : (s.endRequest o k).raiseOverrun = s.raiseOverrun.endRequest o k := by
    simp only [State.endRequest_eq, State.raiseOverrun, State.setFlags, State.withCm_cm]
    unfold ControlMonitor.requestEnded
    obtain ⟨_, _, _, _, _, _, _, cm, _, _, _, _⟩ := s
    obtain ⟨_, _, _, p, _, _, _, _, _, _, fl, _, mi, _⟩ := cm
    obtain ⟨f1, f2, f3, f4, f5, f6, f7, f8⟩ := fl
    rcases p with _ | _ | _
    · rfl
    · by_cases h : mi.acks.length < Config.ackDepth
      · simp only [h, if_true]; rfl
      · simp only [h, if_false]; cases f1 <;> cases f7 <;> simp [State.withCm]
    · rfl
  unfold State.handRecord
  rw [show (s.endRequest o k).ring = s.ring by simp]
  (repeat' split) <;> first | rfl | exact ho | simp only [State.endRequest_eq]; rfl

/-- A hold takes effect alike before and after the end of the request in progress. -/
theorem State.settleHold_endRequest (s : State) (o : AckOutcome) (k : Option ConfigCode) :
    (s.endRequest o k).settleHold = s.settleHold.endRequest o k := by
  have hc : ∀ c : ControlMonitor, (c.requestEnded o k).placed = c.placed ∧ (c.requestEnded o k).hold = c.hold := by
    intro c; unfold ControlMonitor.requestEnded; split <;> (try split) <;> exact ⟨rfl, rfl⟩
  have hh : ∀ h, (s.endRequest o k).holdInForce h = (s.holdInForce h).endRequest o k := by
    intro h
    simp only [State.endRequest_eq, State.holdInForce, State.withCm_cm]
    unfold ControlMonitor.requestEnded
    obtain ⟨_, _, _, _, _, _, _, cm, _, _, _, _⟩ := s
    obtain ⟨_, _, _, p, _, _, _, _, _, _, _, _, mi, _⟩ := cm
    rcases p with _ | _ | _
    · rfl
    · by_cases hm : mi.acks.length < Config.ackDepth <;> simp only [hm, if_true, if_false] <;> rfl
    · rfl
  unfold State.settleHold
  rw [show (s.endRequest o k).cm.placed = s.cm.placed by rw [State.endRequest_eq]; exact (hc _).1,
    show (s.endRequest o k).cm.hold = s.cm.hold by rw [State.endRequest_eq]; exact (hc _).2,
    show (s.endRequest o k).path = s.path by simp]
  split
  · exact hh _
  · rfl

/-- What a block update of the path, the cache or the upstream port leaves is left alike after the end of the request
in progress. -/
theorem State.withPath_endRequest (s : State) (o : AckOutcome) (k : Option ConfigCode) (p : Option Held) :
    (s.endRequest o k).withPath p = (s.withPath p).endRequest o k := by simp only [State.endRequest_eq]; rfl

theorem State.withAcc_endRequest (s : State) (o : AckOutcome) (k : Option ConfigCode) (c : AccCache) :
    (s.endRequest o k).withAcc c = (s.withAcc c).endRequest o k := by simp only [State.endRequest_eq]; rfl

theorem State.answerRequest_endRequest (s : State) (o : AckOutcome) (k : Option ConfigCode) (r : Request) (a : Answer) :
    (s.endRequest o k).answerRequest r a = (s.answerRequest r a).endRequest o k := by
  simp only [State.endRequest_eq, State.answerRequest]; split <;> rfl

theorem State.finishPath_endRequest (s : State) (o : AckOutcome) (k : Option ConfigCode) :
    (s.endRequest o k).finishPath = s.finishPath.endRequest o k := by
  rw [State.finishPath, State.withPath_endRequest, State.settleHold_endRequest]; rfl

theorem State.startedAge_endRequest (s : State) (o : AckOutcome) (k : Option ConfigCode) :
    (s.endRequest o k).startedAge = s.startedAge := by
  rw [State.endRequest_eq]; unfold State.startedAge
  simp only [State.withCm_cm, State.withCm_acc, (ControlMonitor.requestEnded_course o k s.cm).1]

theorem State.applyOp_endRequest (s : State) (o : AckOutcome) (k : Option ConfigCode) (op : PendingOp) (i : Fin 64) :
    (s.endRequest o k).applyOp op i = (s.applyOp op i).endRequest o k := by
  rw [State.applyOp_eq, State.applyOp_eq, State.endRequest_line, State.endRequest_acc, State.startedAge_endRequest]
  split
  · rw [State.handRecord_endRequest, State.withAcc_endRequest]
  · rw [State.withAcc_endRequest]

theorem State.allocate_endRequest (s : State) (o : AckOutcome) (k : Option ConfigCode) (backing : Addr)
    (pending : List PendingOp) (r : Request) (waiting : Stage) (taken : Fin 64 → State → State)
    (h : ∀ i u, taken i (State.endRequest o k u) = (taken i u).endRequest o k) :
    (s.endRequest o k).allocate backing pending r waiting taken
      = (s.allocate backing pending r waiting taken).endRequest o k := by
  have ha : (s.endRequest o k).allocation = s.allocation := by rw [State.endRequest_eq]; rfl
  unfold State.allocate
  rw [ha]
  split
  · simp only [State.setUpLine, State.endRequest_acc, State.withAcc_endRequest, h]
  · simp only [State.startWriteBack, State.endRequest_acc, State.endRequest_line, State.withAcc_endRequest, State.keep,
      State.withPath_endRequest]
  · simp only [State.keep, State.withPath_endRequest]

theorem State.handOperation_endRequest (s : State) (o : AckOutcome) (k : Option ConfigCode) (r : Request)
    (op : PendingOp) (backing : Addr) :
    (s.endRequest o k).handOperation r op backing = (s.handOperation r op backing).endRequest o k := by
  unfold State.handOperation
  rw [State.endRequest_lineFor]
  split
  · exact s.allocate_endRequest _ _ _ _ _ _ _ fun i u => u.finishPath_endRequest _ _
  · simp only [State.endRequest_line, State.setLine, State.endRequest_acc, State.keep, State.withAcc_endRequest,
      State.withPath_endRequest, State.applyOp_endRequest, State.finishPath_endRequest]
    (repeat' split) <;> rfl

theorem State.serveDrain_endRequest (s : State) (o : AckOutcome) (k : Option ConfigCode) (r : Request)
    (order : Order) (backing : Addr) :
    (s.endRequest o k).serveDrain r order backing = (s.serveDrain r order backing).endRequest o k := by
  unfold State.serveDrain
  rw [State.endRequest_lineFor]
  split
  · exact s.allocate_endRequest _ _ _ _ _ _ _ fun i u => by simp only [State.keep, State.withPath_endRequest]
  · simp only [State.endRequest_line, State.setLine, State.touch, State.endRequest_acc, State.keep,
      State.withAcc_endRequest, State.withPath_endRequest, State.startedAge_endRequest, State.answerRequest_endRequest,
      State.finishPath_endRequest]
    (repeat' split) <;> rfl

/-- Settling acts on the cache alone, whatever the Control Monitor holds. -/
theorem State.settle_withCm (write : Bool) (addr : Addr) (n : Nat) (s : State) (c : ControlMonitor) :
    (s.withCm c).settle write addr n = (s.settle write addr n).withCm c := by
  have h1 : ∀ (u : State) (i : Fin 64),
      State.settleLine write (u.withCm c) i = (State.settleLine write u i).withCm c := by
    intro u i
    unfold State.settleLine
    simp only [show (u.withCm c).line i = u.line i from rfl]
    split <;> rfl
  have h2 : ∀ (is : List (Fin 64)) (u : State),
      is.foldl (State.settleLine write) (u.withCm c) = (is.foldl (State.settleLine write) u).withCm c := by
    intro is
    induction is with
    | nil => intro u; rfl
    | cons i is ih => intro u; rw [List.foldl_cons, h1, ih]; rfl
  exact h2 _ s

theorem State.settle_endRequest (s : State) (o : AckOutcome) (k : Option ConfigCode) (write : Bool) (addr : Addr)
    (n : Nat) : (s.endRequest o k).settle write addr n = (s.settle write addr n).endRequest o k := by
  have hc : (s.settle write addr n).cm = s.cm := by simp
  rw [State.endRequest_eq, State.endRequest_eq, State.settle_withCm, hc]

/-! ### A request tried again adds no mark -/

theorem State.allocate_unmarked {s : State} (hm : ∀ i, (s.line i).flushMark = false) (backing : Addr)
    (pending : List PendingOp) (r : Request) (waiting : Stage) (taken : Fin 64 → State → State)
    (h : ∀ i u, (taken i u).acc = u.acc) (i : Fin 64) :
    ((s.allocate backing pending r waiting taken).line i).flushMark = false := by
  unfold State.allocate
  split
  · rename_i k _
    show (AccCache.line _ i).flushMark = false
    rw [h]
    show (AccCache.line (AccCache.setLine k _ s.acc) i).flushMark = false
    rw [AccCache.line_setLine]; split
    · rfl
    · exact hm i
  · show ((s.startWriteBack true _).line i).flushMark = false
    rw [State.line_startWriteBack]; split
    · exact hm _
    · exact hm i
  · exact hm i

theorem Line.replaceRecord_flushMark (r : Record) (age : Option Nat) (l : Line) :
    (l.replaceRecord r age).flushMark = l.flushMark := by unfold Line.replaceRecord; split <;> rfl

theorem State.handOperation_unmarked {s : State} (hm : ∀ i, (s.line i).flushMark = false) (r : Request)
    (op : PendingOp) (backing : Addr) (i : Fin 64) :
    ((s.handOperation r op backing).line i).flushMark = false := by
  unfold State.handOperation
  split
  · exact s.allocate_unmarked hm _ _ _ _ _ (fun i u => by simp) i
  · rename_i k _
    simp only
    split
    · split
      · show (AccCache.line _ i).flushMark = false
        rw [show (State.finishPath _).acc = _ from (State.finishPath_frame _).2.2.2.1]
        show ((s.setLine k _).line i).flushMark = false
        rw [State.line_setLine]; split
        · exact hm _
        · exact hm i
      · exact hm i
    · show (AccCache.line _ i).flushMark = false
      rw [show (State.finishPath _).acc = _ from (State.finishPath_frame _).2.2.2.1, State.applyOp_eq]
      show (AccCache.line (AccCache.touch k _) i).flushMark = false
      rw [AccCache.line_touch, AccCache.line_setLine]; split
      · rw [Line.replaceRecord_flushMark]; exact hm _
      · exact hm i

theorem State.serveDrain_unmarked {s : State} (hm : ∀ i, (s.line i).flushMark = false) (r : Request)
    (order : Order) (backing : Addr) (i : Fin 64) :
    ((s.serveDrain r order backing).line i).flushMark = false := by
  unfold State.serveDrain
  split
  · exact s.allocate_unmarked hm _ _ _ _ _ (fun i u => by simp) i
  · rename_i k _
    simp only
    split
    · exact hm i
    · show (AccCache.line _ i).flushMark = false
      simp only [State.finishPath_frame, State.answerRequest_frame]
      show (AccCache.line (AccCache.touch k _) i).flushMark = false
      rw [AccCache.line_touch]
      show ((s.setLine k _).line i).flushMark = false
      rw [State.line_setLine]; split
      · rw [Line.replaceRecord_flushMark]; exact hm _
      · exact hm i

/-- Settling adds no mark, and leaves a FREE line as it is. -/
theorem State.settle_lines (write : Bool) (addr : Addr) (n : Nat) (s : State) (i : Fin 64) :
    ((s.line i).flushMark = false → ((s.settle write addr n).line i).flushMark = false) ∧
    ((s.line i).state = .free → ((s.settle write addr n).line i).state = .free) := by
  obtain ⟨c, hc, hl, _⟩ := State.settleLines_spec write _ s (s.overlappedLines_spec addr n).1
  have hi : (s.settle write addr n).line i = c.line i := by rw [State.settle, hc]; rfl
  rw [hi, hl i]
  unfold Line.settled
  (repeat' split) <;> simp_all [Line.empty, Line.startWrite]

/-! ### What is reported of the lines -/

theorem AccCache.anyMarked_eq_false (c : AccCache) : c.anyMarked = false ↔ ∀ i, (c.line i).flushMark = false := by
  simp [AccCache.anyMarked]

theorem AccCache.allFree_eq_true (c : AccCache) : c.allFree = true ↔ ∀ i, (c.line i).state = .free := by
  simp [AccCache.allFree]

/-- A flush is reported when it is in progress and no mark is left. -/
theorem State.flushCheck_eq (s : State) : s.flushCheck =
    if s.flushing = true ∧ s.acc.anyMarked = false then s.endRequest .done none else s := by
  unfold State.flushCheck State.flushing
  split
  · cases hm : s.acc.anyMarked <;> simp_all
  · simp_all

/-- The report of a flush leaves the way to BYPASS. -/
theorem State.flushCheck_leaving (s : State) : s.flushCheck.cm.leaving = s.cm.leaving := by
  rw [State.flushCheck_eq]
  split
  · rw [State.endRequest_eq]; exact (ControlMonitor.requestEnded_course _ _ _).2.1
  · rfl

/-- What is reported of the lines is what the checks of the flush and of the drain do (R107, R108, R149, R157). -/
theorem State.linesReported_eq (s : State) : s.linesReported = s.flushCheck.drainedCheck := by
  have hb : s.acc.allFree = true ↔ ∀ i, (s.line i).state = .free := AccCache.allFree_eq_true _
  have hf : s.flushCheck = (match s.cm.inProgress with
    | some (.block .flush tag) =>
      if ∀ i, (s.line i).flushMark = false then
        State.formAck ⟨4, tag, some .done, 0⟩ { s with cm := { s.cm with inProgress := none } }
      else s
    | _ => s) := by
    have ha : s.acc.anyMarked = false ↔ ∀ i, (s.line i).flushMark = false := AccCache.anyMarked_eq_false _
    unfold State.flushCheck State.endRequest
    split
    · rename_i h
      simp only [h, ← ha]
      cases s.acc.anyMarked <;> rfl
    · simp_all
  unfold State.drainedCheck
  rw [State.flushCheck_leaving, show s.flushCheck.acc = s.acc by simp, hf]
  simp only [State.linesReported, hb]
  rfl

theorem State.drainLine_withPath (s : State) (p : Option Held) (i : Fin 64) :
    (s.withPath p).drainLine i = (s.drainLine i).withPath p := by
  unfold State.drainLine
  rw [State.withPath_cm, show (s.withPath p).line i = s.line i from rfl]
  by_cases hl : s.cm.leaving = .draining
  · rw [if_pos hl, if_pos hl]; cases (s.line i).state <;> rfl
  · rw [if_neg hl, if_neg hl]

theorem State.flushCheck_withPath (s : State) (p : Option Held) :
    (s.withPath p).flushCheck = s.flushCheck.withPath p := by
  unfold State.flushCheck
  rw [← State.withPath_endRequest, State.withPath_cm, State.withPath_acc]
  cases s.acc.anyMarked <;> split <;> rfl

theorem State.drainedCheck_withPath (s : State) (p : Option Held) :
    (s.withPath p).drainedCheck = s.drainedCheck.withPath p := by
  unfold State.drainedCheck
  rw [State.withPath_cm, State.withPath_acc]
  by_cases h : s.cm.leaving = .draining ∧ s.acc.allFree = true
  · rw [if_pos h, if_pos h]; rfl
  · rw [if_neg h, if_neg h]

/-- A retry that ends the request in progress alike before and after, and adds no mark, may follow the report of a
flush. -/
theorem State.flushCheck_retry {f : State → State} (hk : ∀ u, (f u).cm.inProgress = u.cm.inProgress)
    (hc : ∀ u, f (u.endRequest .done none) = (f u).endRequest .done none)
    (hm : ∀ u : State, (∀ i, (u.line i).flushMark = false) → ∀ i, ((f u).line i).flushMark = false) (u : State) :
    (f u.flushCheck).flushCheck = (f u).flushCheck := by
  have hg : (f u).flushing = u.flushing := by unfold State.flushing; rw [hk]
  by_cases h : u.flushing = true ∧ u.acc.anyMarked = false
  · have hf : (f u).acc.anyMarked = false :=
      (AccCache.anyMarked_eq_false _).2 (hm u ((AccCache.anyMarked_eq_false _).1 h.2))
    have hn : ((f u).endRequest .done none).flushing = false := by
      unfold State.flushing
      rw [State.endRequest_eq, State.withCm_cm, (ControlMonitor.requestEnded_course _ _ _).2.2]
    rw [State.flushCheck_eq u, if_pos h, hc, State.flushCheck_eq (f u), if_pos ⟨hg.trans h.1, hf⟩,
      State.flushCheck_eq, if_neg (by simp [hn])]
  · rw [State.flushCheck_eq u, if_neg h]

/-- The report of a flush and the way to BYPASS do not meet. -/
theorem State.flushCheck_withLeaving (s : State) (l : Leaving) :
    (s.withCm { s.cm with leaving := l }).flushCheck
      = s.flushCheck.withCm { s.flushCheck.cm with leaving := l } := by
  have he : ∀ u : State, (u.withCm { u.cm with leaving := l }).endRequest .done none =
      (u.endRequest .done none).withCm { (u.endRequest .done none).cm with leaving := l } := by
    intro u
    simp only [State.endRequest_eq]
    unfold ControlMonitor.requestEnded
    obtain ⟨_, _, _, _, _, _, _, cm, _, _, _, _⟩ := u
    obtain ⟨_, _, _, p, _, _, _, _, _, _, _, _, mi, _⟩ := cm
    rcases p with _ | _ | _
    · rfl
    · by_cases hm : mi.acks.length < Config.ackDepth <;> simp only [State.withCm, hm, if_true, if_false]
    · rfl
  rw [State.flushCheck_eq, State.flushCheck_eq, he]
  simp only [State.withCm_acc, show (s.withCm { s.cm with leaving := l }).flushing = s.flushing from rfl]
  by_cases h : s.flushing = true ∧ s.acc.anyMarked = false
  · simp only [if_pos h]
  · simp only [if_neg h]

/-! ### The request held is tried again -/

/-- Settling again may follow what is reported of the lines. -/
theorem State.settle_reported (write : Bool) (addr : Addr) (n : Nat) (u : State) :
    (u.linesReported.settle write addr n).linesReported = (u.settle write addr n).linesReported := by
  have hf := State.flushCheck_retry (f := fun v => v.settle write addr n) (fun v => by simp)
    (fun v => v.settle_endRequest _ _ _ _ _) (fun v hv i => (State.settle_lines write addr n v i).1 (hv i))
  simp only [State.linesReported_eq]
  by_cases hd : u.cm.leaving = .draining ∧ u.acc.allFree = true
  · have h1 : u.flushCheck.drainedCheck = u.flushCheck.withCm { u.flushCheck.cm with leaving := .releasing } := by
      rw [State.drainedCheck, if_pos (by rw [State.flushCheck_leaving]; simpa using hd)]
    have hc : (u.flushCheck.settle write addr n).cm = u.flushCheck.cm := by simp
    have hs : (u.settle write addr n).acc.allFree = true := by
      rw [AccCache.allFree_eq_true] at *
      exact fun i => (State.settle_lines write addr n u i).2 (hd.2 i)
    rw [h1, State.settle_withCm, ← hc, State.flushCheck_withLeaving, hf]
    rw [State.drainedCheck, State.drainedCheck, if_neg (by simp), if_pos]
    rw [State.flushCheck_leaving]
    refine ⟨by simpa using hd.1, by simpa using hs⟩
  · have h1 : u.flushCheck.drainedCheck = u.flushCheck := by
      rw [State.drainedCheck, if_neg (by rw [State.flushCheck_leaving]; simpa using hd)]
    rw [h1, hf]

theorem State.afterLine_eq (s : State) (i : Fin 64) : s.afterLine i = (s.drainLine i).resumePath.linesReported := by
  rw [State.linesReported_eq]; rfl

theorem State.linesReported_withPath (s : State) (p : Option Held) :
    (s.withPath p).linesReported = s.linesReported.withPath p := by
  simp only [State.linesReported_eq, State.flushCheck_withPath, State.drainedCheck_withPath]

/-- Where the request held is one that is not tried again, a line that has changed leaves it as it is. -/
theorem State.afterLine_kept {own : State → State} (hp : ∀ s p, own (s.withPath p) = (own s).withPath p)
    (hk : ∀ s, (own s).path = s.path) {s : State} (i : Fin 64)
    (hr : ∀ u : State, u.path = s.path → u.resumePath = u) :
    (own s).afterLine i = ((own (s.withPath none)).afterLine i).withPath s.path := by
  have hn : ∀ u : State, u.path = none → u.resumePath = u := by
    intro u hu; unfold State.resumePath; rw [hu]
  rw [State.afterLine_eq, State.afterLine_eq, hr _ (by simp [hk]), hn _ (by simp [hk]), hp, State.drainLine_withPath,
    ← State.linesReported_withPath]
  congr 1
  have : ((own s).drainLine i).path = s.path := by simp [hk]
  rw [← this]; rfl

/-- A request held is tried again on what the line's own steps leave, as if they had been made without it, and what it
leaves is reported. -/
theorem State.afterLine_tried {f own : State → State} (hp : ∀ s p, own (s.withPath p) = (own s).withPath p)
    (hk : ∀ s, (own s).path = s.path) {s : State} (i : Fin 64)
    (hf : ∀ u : State, u.cm.leaving = (own s).cm.leaving → (f u.linesReported).linesReported = (f u).linesReported)
    (hr : ∀ u : State, u.path = s.path → u.resumePath = f u) :
    (own s).afterLine i = (f (((own (s.withPath none)).afterLine i).withPath s.path)).linesReported := by
  have hn : ∀ u : State, u.path = none → u.resumePath = u := by
    intro u hu; unfold State.resumePath; rw [hu]
  have hu : ((own s).drainLine i).path = s.path := by simp [hk]
  have hl : ((own s).drainLine i).cm.leaving = (own s).cm.leaving := by
    unfold State.drainLine; split
    · split <;> simp
    · rfl
  rw [State.afterLine_eq, State.afterLine_eq, hr _ hu, hn _ (by simp [hk]), hp, State.drainLine_withPath,
    State.linesReported_withPath, ← hf _ hl]
  congr 2
  conv_lhs => rw [show (own s).drainLine i = ((own s).drainLine i).withPath s.path by rw [← hu]; rfl]
  exact (State.linesReported_withPath ((own s).drainLine i) s.path).trans rfl

/-- An operation or a DRAIN read handed over again may follow what is reported of the lines, outside the drain. -/
theorem State.retry_reported {f : State → State}
    (hk : ∀ u, (f u).cm.leaving = u.cm.leaving ∧ (f u).cm.inProgress = u.cm.inProgress)
    (hc : ∀ u, f (u.endRequest .done none) = (f u).endRequest .done none)
    (hm : ∀ u : State, (∀ i, (u.line i).flushMark = false) → ∀ i, ((f u).line i).flushMark = false) {u : State}
    (hl : u.cm.leaving ≠ .draining) : (f u.linesReported).linesReported = (f u).linesReported := by
  have h1 : u.flushCheck.drainedCheck = u.flushCheck := by
    rw [State.drainedCheck, if_neg (by rw [State.flushCheck_leaving]; simp [hl])]
  simp only [State.linesReported_eq, h1]
  rw [State.flushCheck_retry (fun v => (hk v).2) hc hm]

end Sys2Proof.Machine
end

