-- ==== Sys2Proof/Laws/Words.lean ====
section
/-! SUPPORT. The recognised words (R145, R151): what taking one leaves unchanged, and the order in which they are taken
before other steps. -/

namespace Sys2Proof.Machine

/-! ### What taking a word leaves unchanged -/

section

variable (s : State)

@[simp] theorem State.setFlags_recognised (f : StickyFlags) : (s.setFlags f).cm.recognised = s.cm.recognised := rfl

@[simp] theorem State.formAck_recognised (a : Ack) : (s.formAck a).cm.recognised = s.cm.recognised := by
  simp only [State.formAck, State.pushAck]; split <;> rfl

@[simp] theorem State.endRequest_recognised (o : AckOutcome) (c : Option ConfigCode) :
    (s.endRequest o c).cm.recognised = s.cm.recognised := by
  simp only [State.endRequest]; split <;> simp

@[simp] theorem State.settleHold_recognised : s.settleHold.cm.recognised = s.cm.recognised := by
  simp only [State.settleHold]; split <;> rfl

@[simp] theorem State.placeHold_recognised (h : Hold) : (s.placeHold h).cm.recognised = s.cm.recognised := by
  simp [State.placeHold]

@[simp] theorem State.beginLeaving_recognised : s.beginLeaving.cm.recognised = s.cm.recognised := by
  simp only [State.beginLeaving]; split <;> simp [State.setMode]

@[simp] theorem State.beginLeaving_frame :
    s.beginLeaving.up = s.up ∧ s.beginLeaving.path = s.path ∧ s.beginLeaving.walker = s.walker ∧
    s.beginLeaving.windows = s.windows ∧ s.beginLeaving.acc = s.acc ∧ s.beginLeaving.down = s.down ∧
    s.beginLeaving.ring = s.ring ∧ s.beginLeaving.link = s.link ∧ s.beginLeaving.pins = s.pins ∧
    s.beginLeaving.freeTick = s.freeTick ∧ s.beginLeaving.pending = s.pending := by
  simp only [State.beginLeaving]; split <;> simp

@[simp] theorem State.carryOut_frame (c : Command) :
    (c.carryOut s).up = s.up ∧ (c.carryOut s).path = s.path ∧ (c.carryOut s).walker = s.walker ∧
    (c.carryOut s).down = s.down ∧ (c.carryOut s).ring = s.ring ∧ (c.carryOut s).link = s.link ∧
    (c.carryOut s).pins = s.pins ∧ (c.carryOut s).pending = s.pending := by
  cases c <;> simp [Command.carryOut]

@[simp] theorem State.carryOut_recognised (c : Command) : (c.carryOut s).cm.recognised = s.cm.recognised := by
  cases c <;> simp [Command.carryOut, State.clearStatus, State.setLatch]
  simp only [State.flushCheck]; (repeat' split) <;> simp

/-- A word taken changes the Window Cache, the lines, the ring, the Control Monitor and the free tick alone. -/
@[simp] theorem State.takeWord_frame (w : ControlWord) :
    (s.takeWord w).up = s.up ∧ (s.takeWord w).path = s.path ∧ (s.takeWord w).walker = s.walker ∧
    (s.takeWord w).down = s.down ∧ (s.takeWord w).link = s.link ∧ (s.takeWord w).pins = s.pins ∧
    (s.takeWord w).pending = s.pending := by
  unfold State.takeWord State.consume State.onRequest State.refuseRequest
  (repeat' split) <;> simp

/-- A word taken leaves the words behind it waiting. -/
@[simp] theorem State.takeWord_recognised (w : ControlWord) : (s.takeWord w).cm.recognised = s.cm.recognised := by
  unfold State.takeWord State.consume State.onRequest State.refuseRequest State.raiseIndexError
  (repeat' split) <;> simp

end

/-! ### When a word is taken -/

/-- A word at the head of those that wait, or presented with none waiting, is taken by its row. -/
theorem State.onWord_taken {w : ControlWord} {s : State} (h : s.takesWord w) : s.onWord w = s.wordTaken.takeWord w := by
  obtain ⟨hr, hw⟩ := h
  simp only [State.running] at hr
  simp only [State.onWord, State.wordTaken, hr, Bool.false_eq_true, if_false]
  cases hq : s.cm.recognised with
  | nil => cases s with | mk _ _ _ _ _ _ _ cm => cases cm; simp_all [State.takeThrough]
  | cons a rest => simp [State.takeThrough, State.withCm, hw a (by simp [hq])]

/-- A word behind another is taken after it. -/
theorem State.onWord_behind {w h : ControlWord} {rest : List ControlWord} {s : State} (hr : s.running)
    (hq : s.cm.recognised = h :: rest) (hw : h ≠ w) : s.onWord w = (s.wordTaken.takeWord h).onWord w := by
  simp only [State.running] at hr
  simp [State.onWord, State.wordTaken, hr, hq, State.takeThrough, State.withCm, hw]

/-- While RSTn is asserted no word is taken. -/
theorem State.onWord_reset {w : ControlWord} {s : State} (h : ¬ s.running) : s.onWord w = s := by
  simp [State.onWord, Bool.not_eq_false _ ▸ h]

/-- With no word waiting a step comes at once. -/
theorem State.afterWords_none {act : State → State} {s : State} (h : s.cm.recognised = []) : s.afterWords act = act s := by
  simp [State.afterWords, h, State.takeWords]

/-- A step comes after the word at the head of those that wait. -/
theorem State.afterWords_behind {act : State → State} {h : ControlWord} {rest : List ControlWord} {s : State}
    (hr : s.running) (hq : s.cm.recognised = h :: rest) :
    s.afterWords act = (s.wordTaken.takeWord h).afterWords act := by
  simp only [State.running] at hr
  simp [State.afterWords, State.wordTaken, hr, hq, State.takeWords, State.withCm]

/-- Words taken one after another leave what each leaves. -/
theorem State.takeWords_frame (ws : List ControlWord) (s : State) :
    (s.takeWords ws).up = s.up ∧ (s.takeWords ws).path = s.path ∧ (s.takeWords ws).walker = s.walker ∧
    (s.takeWords ws).down = s.down ∧ (s.takeWords ws).link = s.link ∧ (s.takeWords ws).pins = s.pins ∧
    (s.takeWords ws).pending = s.pending := by
  induction ws generalizing s with
  | nil => simp [State.takeWords]
  | cons w ws ih => simp [State.takeWords, ih]

/-- Taking words leaves none of them waiting. -/
theorem State.takeWords_recognised (ws : List ControlWord) (s : State) (h : s.cm.recognised = ws) :
    (s.takeWords ws).cm.recognised = [] := by
  induction ws generalizing s with
  | nil => simpa [State.takeWords] using h
  | cons w ws ih => rw [State.takeWords]; exact ih _ (by simp)

@[simp] theorem State.wordTaken_mode (s : State) : s.wordTaken.cm.mode = s.cm.mode := rfl
@[simp] theorem State.wordTaken_inProgress (s : State) : s.wordTaken.cm.inProgress = s.cm.inProgress := rfl

/-! ### What a REQUEST word does -/

@[simp] theorem Command.ofCode_code (c : Command) : Command.ofCode c.code = some c := by cases c <;> rfl

theorem Command.code_ne_zero (c : Command) : ¬ c.code = 0 := by cases c <;> decide

/-- The word of a known command is judged as its request. -/
@[simp] theorem State.takeWord_code (s : State) (c : Command) (tag : Byte) :
    s.takeWord (.request c.code tag) = s.onRequest c tag := by
  rw [State.takeWord, if_neg c.code_ne_zero, Command.ofCode_code]

/-- A request of a known command that is taken becomes the request in progress and is carried out. -/
theorem State.onRequest_taken {c : Command} {tag : Byte} {s : State} (hi : s.cm.inProgress = none)
    (hm : c.takenIn s.cm.mode = true) :
    s.onRequest c tag = c.carryOut { s with cm := { s.cm with inProgress := some (.block c tag) } } := by
  rw [State.onRequest, if_neg (by simp [hi]), if_neg (by simp [hm])]; rfl

/-- The row of a known command does what its word does. -/
theorem exec_instr (c : Command) (tag : Byte) (s : State) :
    exec (c.instr tag) s = .next (s.onWord (.request c.code tag)) := by cases c <;> rfl

/-- A code names a command only as its own. -/
theorem Command.code_of_ofCode {code : Byte} {c : Command} (h : Command.ofCode code = some c) : code = c.code := by
  revert h; revert code; cases c <;> decide +kernel

/-- A code that is not 0 and names no command is unknown. -/
theorem unknownCode_of_ofCode {code : Byte} (h0 : ¬ code = 0) (h : Command.ofCode code = none) :
    unknownCode code = true := by
  revert h h0; revert code; decide +kernel

/-- The row of a recognised word does what the word does. -/
theorem exec_word (w : ControlWord) (s : State) : exec w.instr s = .next (s.onWord w) := by
  cases w with
  | consumed index => rfl
  | request code tag =>
    by_cases h0 : code = 0
    · subst h0; rfl
    · simp only [ControlWord.instr, if_neg h0]
      cases hc : Command.ofCode code with
      | some c => rw [Command.code_of_ofCode hc]; exact exec_instr c tag s
      | none => simp [exec, execRefusedCommand, unknownCode_of_ofCode h0 hc]

end Sys2Proof.Machine
end

