-- ==== Sys2Proof/Tests/Slice0.lean ====
section
/-! SUPPORT. Tests: ill-formed commands are refused, the manual's worked examples come out as printed, and for every
statement of Obligations.lean that has hypotheses a state and operands meet them, clause by clause. -/

namespace Sys2Proof.Tests

open Sys2Proof Sys2Proof.Machine

/-! ### States the tests start from -/

/-- The state a command answers, if it answers a next state. -/
def after (c : Instr) (s : State) : Option State :=
  match exec c s with
  | .next t => some t
  | _ => none

/-- A window of each kind at backing 1200_0000h, for user and supervisor, open to every group. -/
def window (kind : WindowKind) : Descriptor :=
  ⟨kind, 0x12000000, .full, false, 15, .big, ⟨0, true, .wrap, .halfEven, 2, 10, 0⟩⟩

/-- The state after reset in a mode, with a span of 256 KiB at 4000_0000h and the directory at 2000_0000h. -/
def inMode (m : Mode) : State :=
  { State.reset with cm := { State.reset.cm with mode := m, config := ⟨0x40000000, 0, 0x20000000, 0⟩ } }

/-- A request of a master, with its data. -/
def request (kind : AccessKind) (addr : Addr) (shape : Shape) (data : List Byte) : Request :=
  ⟨kind, addr, shape, data, 6, .usr, if kind = .read then some 0 else none⟩

/-- A state whose intake queue holds one request. -/
def withRequest (r : Request) (s : State) : State := { s with up := { s.up with intake := [r] } }

/-- A state whose Request Path holds a request at a stage. -/
def holding (r : Request) (stage : Stage) (s : State) : State := { s with path := some ⟨r, stage⟩ }

/-- The counter of the example of spec/11: VALUE −2, OVF and ARM. -/
def counter : Record := ⟨BitVec.ofInt 56 (-2), true, false, true⟩

/-- A line in a state, for the counter at 1200_0010h. -/
def lineIn (state : LineState) : Line := { Line.empty with state := state, backing := 0x12000010, record := counter }

/-- A state whose line 3 is a given one. -/
def withLine (l : Line) (s : State) : State := { s with acc := { s.acc.setLine 3 l with order := [3] } }

/-- A state in which a FLUSH with tag 1 is in progress. -/
def inFlush (s : State) : State := { s with cm := { s.cm with inProgress := some (.block .flush 1) } }

/-- An operation of kind ADD with WATCH 0, by master 6 at 4000_2810h. -/
def addOp (operand : Int) : PendingOp :=
  ⟨.add, operand, ⟨0, true, .wrap, .trunc, 0, 0, 0⟩, ⟨6, ⟨.write, .usr, .single .b4⟩, 0x40002810⟩⟩

/-- A Window Cache entry for window 5, with both indicators known. -/
def entry (kind : WindowKind) : WindowEntry := ⟨5, 0x20000000, 0x20001050, .full, window kind, true, true⟩

/-- A slot that waits for a pass-through read. -/
def waiting : SlotState := .waiting (.read 0x100 (.single .b8)) (.forwardedRead 0 8)

/-- A state whose slot 2 is a given one, with a given issue order. -/
def withSlot (x : Slot) (order : List (Fin 8)) (s : State) : State :=
  { s with down := { s.down.setSlot 2 x with issueOrder := order } }

/-- A record of the ring. -/
def event : EventRecord := ⟨.halt, none, 0, 0, 0, some 0x12000010, 0, .zero, counter⟩

/-! ### Ill-formed commands -/

theorem test_burst_of_nine_beats_is_refused (s : State) :
    exec (.upstreamRequest ⟨.read, 0, .burst 9, 0, 0, .usr⟩) s = .refused .illFormedCommand := rfl

theorem test_burst_of_no_beats_is_refused (s : State) :
    exec (.upstreamRequest ⟨.read, 0, .burst 0, 0, 0, .usr⟩) s = .refused .illFormedCommand := rfl

theorem test_refusal_of_a_known_code_is_refused (s : State) :
    exec (.refusedCommand 6 0) s = .refused .illFormedCommand := rfl

theorem test_plain_write_of_cb_base_is_refused (s : State) :
    exec (.write 0x06 0) s = .refused .illFormedCommand := rfl

theorem test_well_formed_edges : (Instr.upstreamRequest ⟨.read, 0, .burst 8, 0, 0, .usr⟩).wf = true ∧
    (Instr.upstreamRequest ⟨.read, 0, .burst 1, 0, 0, .usr⟩).wf = true ∧ (Instr.refusedCommand 7 0).wf = true ∧
    (Instr.write 0x07 0).wf = true := by decide

/-! ### The manual's examples -/

/-- R4: FFh then FEh under each ORDER and SIGNED. -/
theorem test_operands_of_R4 : operandOf .little false [0xFF, 0xFE] = 65279 ∧ operandOf .little true [0xFF, 0xFE] = -257 ∧
    operandOf .big false [0xFF, 0xFE] = 65534 ∧ operandOf .big true [0xFF, 0xFE] = -2 := by decide +kernel

/-- R7: an ADD of 25 to VALUE 2^55−10 under WRAP and CLAMP. -/
theorem test_range_of_R7 : rangeValue .wrap (2 ^ 55 + 15) = -36028797018963953 ∧
    rangeValue .clamp (2 ^ 55 + 15) = 36028797018963967 := by decide +kernel

/-- R13: P = −5 over 2, P = 10 over 4 and P = −4043818 over 2^15 in the three modes. -/
theorem test_rounding_of_R13 :
    let q (round : Round) (p : Int) (shift : BitVec 5) : Int := waddIncrement ⟨0, true, .wrap, round, shift, 1, 63⟩ p
    [q .trunc (-5) 1, q .halfUp (-5) 1, q .halfEven (-5) 1] = [-3, -2, -2] ∧
    [q .trunc 10 2, q .halfUp 10 2, q .halfEven 10 2] = [2, 3, 2] ∧
    [q .trunc (-4043818) 15, q .halfUp (-4043818) 15, q .halfEven (-4043818) 15] = [-124, -123, -123] := by
  decide +kernel

/-- R22: VALUE 40000 by a 2-byte read, and −2^55 by an 8-byte read, under BIG. -/
theorem test_view_of_R22 :
    clampedView .big .b2 ⟨40000, false, false, false⟩ = [0x7F, 0xFF] ∧
    clampedView .big .b8 ⟨BitVec.ofInt 56 (-2 ^ 55), false, false, false⟩ = [0xFF, 0xFF, 0x80, 0, 0, 0, 0, 0] := by
  decide +kernel

/-- spec/11, "one counter in three forms": the stored bytes, and the THRESHOLD record of an ADD of 3. -/
theorem test_threshold_of_spec11 :
    counter.bytes = [0xFE, 0xFF, 0xFF, 0xFF, 0xFF, 0xFF, 0xFF, 0x05] ∧ (evaluate (addOp 3) counter).fired = true ∧
    (thresholdRecord (addOp 3) 0x12000010 counter (evaluate (addOp 3) counter).record).bytes =
      [0x01, 0x00, 0x86, 0x21, 0x10, 0x28, 0x00, 0x40, 0x10, 0x00, 0x00, 0x12, 0, 0, 0, 0,
        0xFE, 0xFF, 0xFF, 0xFF, 0xFF, 0xFF, 0xFF, 0x05, 0x01, 0, 0, 0, 0, 0, 0, 0x07] := by
  decide +kernel

/-- spec/12, 12.2: the samples 13 and −13 on VALUE 1000 end where they began, and 7 then gives 1018. -/
theorem test_samples_of_12_2 :
    let op (x : Int) : PendingOp := ⟨.wadd, x, (window .accumulate).params, .zero⟩
    let start : Record := ⟨1000, false, false, false⟩
    (applyAll 0x12000818 [op 13, op (-13)] start).1 = start ∧ (evaluate (op 7) start).record.value = 1018 := by
  decide +kernel

/-- spec/09: READ of MODE in ACTIVE is answered 00h 01h 00h 00h 00h 01h. -/
theorem test_reading_the_mode :
    after (.read 0x01) (inMode .active) =
      some { inMode .active with link := { (inMode .active).link with
        parser := .responding [0, 1, 0, 0, 0, 1] true false } } := by decide +kernel

/-- spec/12, 12.6, step 2: the flags after a write-back error. -/
theorem test_status_of_12_6 : flagsWord { StickyFlags.clear with fatal := true } ⟨none, false⟩ = 0x8080 := by decide

/-- R166: the frame of 03h, and of 01h with its parity bit set; after reset MLTX rests. -/
theorem test_frame_of_a_character :
    characterFrame 0x03 = [.start, .bit true, .bit true, .bit false, .bit false, .bit false, .bit false, .bit false,
      .bit false, .bit false, .stop] ∧
    characterFrame 0x01 = [.start, .bit true, .bit false, .bit false, .bit false, .bit false, .bit false, .bit false,
      .bit false, .bit true, .stop] ∧ State.reset.mltxFrame = [] := by decide +kernel

/-- R133: a full ring drops the whole queue in one step, with OVERRUN. -/
theorem test_full_ring_drops_the_queue :
    let s : State := { State.reset with ring := { State.reset.ring with
      state := .active, queue := [event, event, event], produced := 16 } }
    (after .ringTakeRecord s).map (fun t => (t.ring.queue, t.ring.phase, t.cm.flags.overrun)) =
      some ([], .idle, true) := by decide +kernel

/-- R85: an eviction's write-back with REDIRTY leaves its line DIRTY as most recently used, and another keeps the order
(log 28). -/
theorem test_redirtied_eviction_is_most_recently_used :
    let s (evict : Bool) : State :=
      let l := { lineIn .writing with redirty := true, evict := evict }
      let t := withLine l (inMode .active)
      { t with acc := { t.acc.setLine 4 { lineIn .clean with backing := 0x12000018 } with order := [3, 4] } }
    ((s true).completeWriteBack 3 .okay).acc.order = [4, 3] ∧ ((s false).completeWriteBack 3 .okay).acc.order = [3, 4] ∧
    (((s true).completeWriteBack 3 .okay).line 3).state = .dirty := by decide +kernel

/-- R17, R86, R96: a PRESET on a CLEAN line starts its timer, and on a DIRTY line lets it run on. -/
theorem test_preset_applied_at_once :
    let s (l : Line) : State :=
      let t := withLine l (inMode .active)
      { t with acc := { t.acc with ageInterval := 20 } }
    let op : PendingOp := { addOp 9 with kind := .preset }
    let u (l : Line) := (s l).handOperation (request .write 0x40002810 (.single .b4) [9, 0, 0, 0]) op 0x12000010
    ((u (lineIn .clean)).line 3).age = some 20 ∧ ((u (lineIn .clean)).line 3).state = .dirty ∧
    ((u { lineIn .dirty with age := some 7 }).line 3).age = some 7 ∧ ((u (lineIn .writing)).line 3).redirty = true ∧
    ((u (lineIn .clean)).line 3).record = ⟨9, false, false, true⟩ := by decide +kernel

/-- R87 and R106 at one fill completion (log 14): the marked line that becomes DIRTY is WRITING before the ninth
operation, which sets REDIRTY. -/
theorem test_ninth_operation_finds_a_marked_line_writing :
    let l := { lineIn .filling with pending := List.replicate 8 (addOp 1), flushMark := true }
    let s := holding (request .write 0x40002810 (.single .b4) [1, 0, 0, 0]) (.operation (addOp 1) 0x12000010)
      (withLine l (inMode .active))
    let u := s.completeFill 3 .okay 0
    (u.line 3).state = .writing ∧ (u.line 3).redirty = true ∧ (u.line 3).writeCopy.value = 8 ∧
    (u.line 3).record.value = 9 ∧ u.path = none := by decide +kernel

/-- R89, step 4 (log 29): memory 0, an ADD of 5 pending and a DRAIN read that waits: the read is answered 5, and the line
is CLEAN. -/
theorem test_change_undone_by_the_waiting_drain_is_clean :
    let op : PendingOp := { addOp 5 with params := { (addOp 5).params with watch := 63 } }
    let s := holding (request .read 0x40002810 (.single .b8) []) (.onLine 3 (.drain .little))
      (withLine { lineIn .filling with pending := [op] } (inMode .active))
    let t := { s with up := { s.up with reads := [⟨0, 6, 8, none⟩] } }.completeFill 3 .okay 0
    (t.line 3).state = .clean ∧ (t.line 3).record = Record.zero ∧ t.path = none ∧
    t.up.reads.map (·.answer) = [some ⟨.okay, [5, 0, 0, 0, 0, 0, 0, 0]⟩] := by decide +kernel

/-! ### A word is taken when its write is presented (R121, R145; log 3) -/

/-- A PURGE presented while a forced bypass is in progress is refused as busy, though the release that ends in BYPASS
comes before the word's own row. -/
theorem test_word_is_taken_before_the_release :
    let s : State := { inMode .draining with cm := { (inMode .draining).cm with
      leaving := .releasing, inProgress := some .link, recognised := [.request 3 9] } }
    (after .ringReleased s).map (fun t => (t.cm.mode, t.cm.recognised, t.cm.mirror.acks)) =
      some (.bypass, [], [Ack.zeros, ⟨3, 9, some .refusedBusy, 0⟩]) := by decide +kernel

/-- A row whose word waits behind another takes both, in their order. -/
theorem test_words_are_taken_in_their_order :
    let s : State := { State.reset with cm := { State.reset.cm with recognised := [.request 3 1, .request 9 2, .consumed 0] } }
    (after (.refusedCommand 9 2) s).map (fun t => (t.cm.recognised, t.cm.mirror.acks)) =
      some ([.consumed 0], [Ack.zeros, ⟨3, 1, some .refusedMode, 0⟩, ⟨9, 2, some .refusedCommand, 0⟩]) := by decide +kernel

/-- A command that neither reads nor changes what a word does leaves the word waiting. -/
theorem test_word_waits_through_other_commands :
    let s : State := { State.reset with cm := { State.reset.cm with recognised := [.request 3 1] } }
    (after .readAnswerTaken s).map (·.cm.recognised) = some [.request 3 1] := by decide +kernel

/-! ### The drain goes on (R108, R149) -/

/-- A DRAINING state with one line in use. -/
def draining (l : Line) : State :=
  withLine l { inMode .draining with cm := { (inMode .draining).cm with leaving := .draining } }

theorem test_drain_of_the_last_line :
    let written (redirty : Bool) := (draining { lineIn .writing with redirty := redirty }).completeWriteBack 3 .okay
    let filled (ops : List PendingOp) (st : Status) :=
      (draining { lineIn .filling with pending := ops }).completeFill 3 st 0
    ((written false).line 3, (written false).cm.leaving) = (Line.empty, .releasing) ∧
    (((written true).line 3).state, ((written true).line 3).evict, (written true).cm.leaving) =
      (.writing, true, .draining) ∧
    ((filled [] .okay).line 3, (filled [] .okay).cm.leaving) = (Line.empty, .releasing) ∧
    (((filled [addOp 1] .okay).line 3).state, ((filled [addOp 1] .okay).line 3).writeCopy.value,
      (filled [addOp 1] .okay).acc.writeQueue) = (.writing, 1, [3]) ∧
    ((filled [addOp 1] .error).line 3, (filled [addOp 1] .error).cm.leaving) = (Line.empty, .releasing) := by
  decide +kernel

/-- R106: the fill of a marked line, as fetched and changed. -/
theorem test_fill_of_a_marked_line :
    let s (ops : List PendingOp) : State :=
      inFlush (withLine { lineIn .filling with pending := ops, flushMark := true } (inMode .active))
    let u (ops : List PendingOp) (st : Status) := (s ops).completeFill 3 st 0
    (((u [] .okay).line 3).state, (u [] .okay).cm.inProgress) = (.clean, none) ∧
    (((u [addOp 1] .okay).line 3).covers, (u [addOp 1] .okay).cm.inProgress) = (true, some (.block .flush 1)) ∧
    (u [addOp 1] .error).cm.mirror.lastAck = some ⟨4, 1, some .done, 0⟩ := by decide +kernel

/-- R104, R108: a forwarded access held in settling when a line changes during the drain: the line is treated first
(log 26), and the access is offered once the line is FREE. -/
theorem test_forward_held_in_the_drain :
    let r (kind : AccessKind) := request kind 0x12000010 (.single .b8) (if kind = .read then [] else List.replicate 8 1)
    let h (kind : AccessKind) (l : Line) := holding (r kind) (.forward 0x12000010 false) (draining l)
    let read := (h .read { lineIn .writing with evict := true }).completeWriteBack 3 .okay
    let again := (h .read { lineIn .writing with evict := true, redirty := true }).completeWriteBack 3 .okay
    let filled := (h .write { lineIn .filling with pending := [addOp 1] }).completeFill 3 .okay 0
    (read.line 3, read.cm.leaving) = (Line.empty, .releasing) ∧ (read.offer .path).isSome = true ∧
    ((again.line 3).state, (again.line 3).evict, again.cm.leaving) = (.writing, true, .draining) ∧
    again.offer .path = none ∧
    ((filled.line 3).state, (filled.line 3).evict, filled.acc.writeQueue) = (.writing, true, [3]) ∧
    filled.path.isSome = true := by decide +kernel

/-- R101, R107: the write-back that clears the last mark of a FLUSH leaves its line CLEAN; a forwarded write held over it
frees it, and the FLUSH is DONE. R85: an operation held for want of a line takes the one that the write-back freed. -/
theorem test_held_when_a_flush_completes :
    let l := { lineIn .writing with flushMark := true, covers := true }
    let w := request .write 0x12000010 (.single .b8) (List.replicate 8 1)
    let u := (inFlush (holding w (.forward 0x12000010 false) (withLine l (inMode .active)))).completeWriteBack 3 .okay
    let o := request .write 0x40002818 (.single .b4) [1, 0, 0, 0]
    let full : State := { inMode .active with acc := { AccCache.reset with
      lines := (Vector.replicate 64 (lineIn .filling)).set 3 { l with evict := true }, order := [3] } }
    let v := (inFlush (holding o (.operation (addOp 1) 0x12000018) full)).completeWriteBack 3 .okay
    (u.line 3, u.path.isSome, u.cm.inProgress) = (Line.empty, true, none) ∧
    u.cm.mirror.lastAck = some ⟨4, 1, some .done, 0⟩ ∧
    ((v.line 3).state, (v.line 3).pending, v.path, v.cm.inProgress) = (.filling, [addOp 1], none, none) := by decide +kernel

/-- R89, R106: a read that waits on a marked line whose record a pending operation changes is answered, and the line is
written with COVERS set. -/
theorem test_read_waiting_on_a_marked_line :
    let r := request .read 0x40002810 (.single .b8) []
    let s := inFlush (holding r (.onLine 3 (.presented .little 0 .b8))
      (withLine { lineIn .filling with pending := [addOp 1], flushMark := true } (inMode .active)))
    let t := { s with up := { s.up with reads := [⟨0, 6, 8, none⟩] } }.completeFill 3 .okay 0
    ((t.line 3).state, (t.line 3).covers, (t.line 3).flushMark, t.acc.writeQueue) = (.writing, true, true, [3]) ∧
    t.path = none ∧ t.up.reads.map (fun e => e.answer.isSome) = [true] ∧
    t.cm.inProgress = some (.block .flush 1) := by decide +kernel

/-! ### Commands whose step cannot take place leave the state (log 1) -/

theorem test_no_request_to_take : after .requestTaken State.reset = some State.reset := by decide +kernel
theorem test_no_answer_to_take : after .readAnswerTaken State.reset = some State.reset := by decide +kernel
theorem test_no_record_to_take : after .ringTakeRecord State.reset = some State.reset := by decide +kernel
theorem test_no_discard_awaited : after .discard State.reset = some State.reset := by decide +kernel
theorem test_no_word_spelt (nbits w : Nat) (s : State) : s.withFetchWord nbits w = s := rfl

/-- After reset the mirror's MODE_STATUS word is granted first. -/
theorem test_first_grant_after_reset :
    ∃ t, exec .arbiterGrant State.reset = .next t ∧
      t.down.slot 0 = ⟨.waiting (.write 0x10088 (.single .b8) [0, 0, 0, 0, 0, 0, 0, 0]) .mirror, false⟩ :=
  ⟨_, rfl, by decide +kernel⟩

/-! ### Witnesses: the hypotheses of every statement are met, clause by clause -/

theorem witness_CommandsAnswerAndKeepTheQueue : Instr.requestTaken.wf = true ∧ (Instr.refusedCommand 6 0).wf = false ∧
    State.reset.pending = [] := by decide

theorem witness_RecordsAreStoredAndPresented : 7 + Size.b1.bytes ≤ 8 ∧ 0 + Size.b8.bytes ≤ 8 ∧ 7 < Size.b8.bytes := by
  decide

theorem witness_OperandsFollowOrderAndSigned : [(0xFF : Byte)].length ∈ [1, 2, 4, 8] ∧
    (List.replicate 8 (0xFF : Byte)).length ∈ [1, 2, 4, 8] := by decide

/-- Sums at the upper limit and one above, and one below the lower limit. -/
theorem witness_SumsAreHandledByPolicy :
    let r : Record := ⟨BitVec.ofInt 56 (2 ^ 55 - 1), false, false, false⟩
    let low : Record := ⟨BitVec.ofInt 56 (-2 ^ 55), false, false, false⟩
    r.value.toInt + (addOp 0).operand = 2 ^ 55 - 1 ∧ r.value.toInt + 1 = 2 ^ 55 ∧
    low.value.toInt + (addOp (-1)).operand = -2 ^ 55 - 1 ∧
    r.value.toInt + waddIncrement ⟨0, true, .clamp, .trunc, 0, 1, 0⟩ 1 = 2 ^ 55 := by decide +kernel

theorem witness_ComparisonsLoadPresetAndRearm : OpKind.peak ∈ [OpKind.peak, .valley, .peakMag, .load, .preset] ∧
    (2 : Int) ^ 55 - 1 < (addOp (2 ^ 55)).operand ∧ (addOp (-2 ^ 55 - 1)).operand < -2 ^ 55 ∧
    -2 ^ 55 ≤ (addOp (2 ^ 55 - 1)).operand ∧ (addOp (2 ^ 55 - 1)).operand ≤ 2 ^ 55 - 1 := by decide +kernel

theorem witness_TheWatchFiresOnARisingBit : (addOp 3).kind ≠ .preset ∧ (addOp 3).kind ≠ .rearm ∧
    (evaluate (addOp 3) counter).fired = true ∧ (evaluate (addOp 2) counter).fired = false := by decide +kernel

theorem witness_TablesAndRightsAreJudged : (1#128).getLsbD 0 = true ∧ (0#128).getLsbD 0 = false ∧
    (window .direct).strict = false ∧ { window .direct with strict := true }.strict = true := by decide

/-- A directory entry and a descriptor that are not malformed. -/
theorem witness_TablesAndRightsAreJudged_fields :
    let c := (inMode .active).cm.config
    dirRightsOf c (.decode (BitVec.ofNat 64 (5 + 0x40002 * 2 ^ 32))) = some .full ∧
    (match descriptorOf c (BitVec.ofNat 128 (1 + 2 * 1 + 16 * 2 + 0xF00 + 0x24000 * 2 ^ 32)) with
      | .ok d => decide (d.kind = .accumulate ∧ d.userRights = .full ∧ d.groups = 15 ∧ d.backing = 0x12000000)
      | .error _ => false) = true := by decide +kernel

/-- Rights too low, a group not admitted, and both passed; a burst at the window's edge, and singles at its end. -/
theorem witness_TheFirstFailedTestGivesTheCause :
    ¬ 2 ≤ (rightsFor .usr .readOnly (window .accumulate)).rank ∧ 2 ≤ (rightsFor .usr .full (window .accumulate)).rank ∧
    ({ window .accumulate with groups := 0 } : Descriptor).groups.getLsbD 0 = false ∧
    (window .accumulate).groups.getLsbD 0 = true ∧ 2048 < 2040 + 8 * 2 ∧ ¬ 2048 < 2032 + 8 * 2 ∧
    2047 % Size.b1.bytes = 0 ∧ 2040 % Size.b8.bytes = 0 ∧ 2047 < 2048 := by decide

/-- A directory entry as it is read: PRESENT, USER_RIGHTS FULL, TABLE_BASE 2000_1000h; and a descriptor: PRESENT,
ACCUMULATE, FULL, every group, BACKING_BASE 1200_0000h. -/
def dirData : Payload := BitVec.ofNat 512 (5 + 0x40002 * 2 ^ 32)
def descData : Payload := BitVec.ofNat 512 (1 + 2 * 1 + 16 * 2 + 0xF00 + 0x24000 * 2 ^ 32)

/-- What a descriptor as read comes to: its decoded form, and the cause it faults with. -/
def decodedTo (x : Except Cause Descriptor) : Option Descriptor :=
  match x with
  | .ok d => some d
  | .error _ => none
def faultedWith (x : Except Cause Descriptor) : Option Cause :=
  match x with
  | .ok _ => none
  | .error c => some c

theorem witness_TheWalkReadsTheTables :
    let c := (inMode .active).cm.config
    (holding (request .read 0x40002810 (.single .b8) []) .walking (inMode .active)).path =
      some ⟨request .read 0x40002810 (.single .b8) [], .walking⟩ ∧
    (BitVec.setWidth 64 (0 : Payload)).getLsbD 0 = false ∧ (BitVec.setWidth 64 dirData).getLsbD 0 = true ∧
    dirRightsOf c (.decode (BitVec.setWidth 64 dirData)) = some .full ∧
    (BitVec.setWidth 64 (7 : Payload)).getLsbD 0 = true ∧ dirRightsOf c (.decode (BitVec.setWidth 64 (7 : Payload))) = none ∧
    faultedWith (descriptorOf c (BitVec.setWidth 128 (0 : Payload))) = some .winAbsent ∧
    (decodedTo (descriptorOf c (BitVec.setWidth 128 descData))).map (·.kind) = some .accumulate := by
  decide +kernel

theorem witness_TheWalkReadsTheTables_offers :
    let w (phase : WalkPhase) (issued : Bool) : Walker := { Walker.idle with phase := phase, issued := issued }
    (w .dirRead false).phase = .dirRead ∧ (w .descRead false).phase = .descRead ∧ (w .descRead false).issued = false ∧
    (w .dirRead true).issued = true := by decide

/-- A walk that ends in a mode that inserts entries, and in one that does not. -/
theorem witness_TheWalkReadsTheTables_modes : ∀ m ∈ [Mode.active, .draining, .halted, .bypass],
    let r := request .read 0x40002810 (.single .b8) []
    (holding r .walking (inMode m)).path = some ⟨r, .walking⟩ ∧ (holding r .walking (inMode m)).cm.mode = m ∧
    (decodedTo (descriptorOf (inMode m).cm.config (BitVec.setWidth 128 descData))).isSome = true := by decide +kernel

theorem witness_TheLockedUpdateSetsTheIndicators :
    let c := (inMode .active).cm.config
    let r := request .write 0x40002810 (.single .b4) [1, 0, 0, 0]
    let e := entry .accumulate
    judge c false e.dirRights e.desc r = none ∧ (inMode .active).cm.mode = .active ∧ e.touchedKnown = true ∧
    e.changedKnown = true ∧ { e with touchedKnown := false }.touchedKnown = false ∧
    { e with changedKnown := false }.changedKnown = false ∧ (holding r .walking (inMode .active)).walker.verdict = none ∧
    ({ Walker.idle with verdict := some ⟨.group, 5, none⟩ } : Walker).verdict = some ⟨.group, 5, none⟩ ∧ e.window = 5 ∧
    (inMode .draining).cm.mode = .draining ∧
    (decodedTo (descriptorOf c (BitVec.setWidth 128 descData))).map (·.backing) = some 0x12000000 ∧
    faultedWith (descriptorOf c 0) = some .winAbsent := by
  decide +kernel

/-- A read and a write that need a locked update, in each mode. -/
theorem witness_TheLockedUpdateSetsTheIndicators_modes : ∀ m ∈ [Mode.active, .draining, .halted, .bypass],
    let e := { entry .accumulate with touchedKnown := false }
    let r := request .read 0x40002810 (.single .b8) []
    (inMode m).cm.mode = m ∧ r.kind = .read ∧ r.readId = some 0 ∧ e.touchedKnown = false ∧
    judge (inMode m).cm.config false e.dirRights e.desc r = none ∧
    judge (inMode m).cm.config false e.dirRights e.desc (request .write 0x40002810 (.single .b4) [1, 0, 0, 0]) = none := by
  decide +kernel

/-- A full cache without an entry for the window, whose least recently used entry is lost, and a full one with it. -/
theorem witness_TheWindowCacheKeepsUseOrder :
    let full := (List.range 32).map fun k => { entry .direct with window := k + 10 }
    (full.filter fun x => x.window ≠ 5).length = 32 ∧ (full.filter fun x => x.window ≠ 12).length = 31 ∧
    (full.filter fun x => x.window ≠ 5).tail.length = 31 ∧
    WindowEntry.touchedBy 0x20000007 1 (entry .direct) = true ∧
    WindowEntry.touchedBy 0x20000008 8 (entry .direct) = false := by decide +kernel

/-- A misaligned write in BYPASS and in ACTIVE, a burst of one beat, span requests in HALTED, a burst that crosses the end
of the span, and a request that faults on its entry. -/
theorem witness_RefusedRequestsAreAnsweredOrDropped :
    let w := request .write 0x40000001 (.single .b2) [1, 2]
    let b := request .read 0x100 (.burst 1) []
    let r := request .read 0x40000000 (.single .b8) []
    (withRequest w (inMode .bypass)).pathFree ∧ w.misshapen = true ∧ b.misshapen = true ∧ w.kind = .write ∧
    w.readId = none ∧ b.readId = some 0 ∧ (inMode .halted).isSpanRequest r = true ∧ r.readId = some 0 ∧
    (inMode .halted).isSpanRequest (request .write 0x4003FFFF (.single .b1) [1]) = true ∧
    (inMode .halted).isSpanRequest (request .write 0x40040000 (.single .b1) [1]) = false ∧
    (withRequest b (inMode .active)).pathFree ∧ (inMode .active).cm.mode = .active ∧
    (let edge := request .read 0x4003FFF8 (.burst 2) []
     edge.misshapen = false ∧ 0 < edge.shape.bytes ∧ edge.addr.toNat < 0x40040000 ∧
       0x40000000 < edge.addr.toNat + edge.shape.bytes ∧ 0x40040000 < edge.addr.toNat + edge.shape.bytes) ∧
    (let q := request .write 0x40002814 (.single .b4) [1, 0, 0, 0]
     let e := entry .accumulate
     q.misshapen = false ∧ q.addr.toNat + q.shape.bytes ≤ 0x40040000 ∧ e.window = (q.addr.toNat - 0x40000000) / 2048 ∧
       ([e].map (·.window)).Nodup ∧
       judge (inMode .active).cm.config false e.dirRights e.desc q = some ⟨.shape, 5, some 0x12000014⟩) := by
  decide +kernel

theorem witness_RequestsAreSortedByTheSpan :
    let out := request .read 0x3FFFFFF8 (.single .b8) []
    let span := request .read 0x40000000 (.single .b8) []
    (withRequest out (inMode .active)).pathFree ∧ out.misshapen = false ∧ (inMode .active).isSpanRequest out = false ∧
    (withLine (lineIn .dirty) (inMode .active)).clearOf out.addr out.shape.bytes ∧
    (inMode .draining).isSpanRequest span = true ∧ (inMode .active).isSpanRequest span = true ∧
    (inMode .active).cm.config.insideSpan span.addr span.shape.bytes = true ∧
    ∀ e ∈ (inMode .active).windows, e.window ≠ 0 := by decide +kernel

/-- A pass-through access over a line: settled outside HALTED and refused in it; and one that only touches its end. -/
theorem witness_RequestsAreSortedByTheSpan_overALine :
    let s (m : Mode) := withLine (lineIn .dirty) (inMode m)
    let w := request .write 0x12000017 (.single .b1) [1]
    let r := request .read 0x12000010 (.single .b8) []
    (withRequest w (s .active)).pathFree ∧ w.misshapen = false ∧ r.misshapen = false ∧
    (s .active).isSpanRequest w = false ∧ (s .halted).isSpanRequest r = false ∧ (s .active).cm.mode ≠ .halted ∧
    (s .halted).cm.mode = .halted ∧ ¬ (s .halted).clearOf w.addr 1 ∧ (s .halted).clearOf 0x12000018 1 ∧
    r.readId = some 0 ∧ w.kind = .write := by decide +kernel

/-- Hits: a read through a window of each KIND. -/
theorem witness_RequestsAreSortedByTheSpan_hit :
    let r := request .read 0x40002810 (.single .b8) []
    let s (kind : WindowKind) := withRequest r { inMode .active with windows := [entry kind] }
    ∀ kind ∈ [WindowKind.direct, .accumulate, .clampedView, .drain], (s kind).pathFree ∧ (s kind).up.intake = [r] ∧
      (s kind).isSpanRequest r = true ∧ (s kind).cm.config.insideSpan r.addr r.shape.bytes = true ∧
      (s kind).cm.mode = .active ∧ entry kind ∈ (s kind).windows ∧ ((s kind).windows.map (·.window)).Nodup ∧
      (entry kind).window = (r.addr.toNat - (s kind).cm.config.spanBase.toNat) / 2048 := by decide +kernel

theorem witness_AccumulateWritesAreAppliedAtOnce :
    let r := request .write 0x40002810 (.single .b4) [0, 0, 0, 3]
    let s := withRequest r { withLine (lineIn .clean) (inMode .active) with windows := [entry .accumulate] }
    let e := entry .accumulate
    s.pathFree ∧ s.up.intake = [r] ∧ s.isSpanRequest r = true ∧ s.cm.config.insideSpan r.addr r.shape.bytes = true ∧
    r.kind = .write ∧ e ∈ s.windows ∧ (s.windows.map (·.window)).Nodup ∧
    e.window = (r.addr.toNat - s.cm.config.spanBase.toNat) / 2048 ∧ e.desc.kind = .accumulate ∧
    accumulateOp e.desc.params.op = some .add ∧ judge s.cm.config false e.dirRights e.desc r = none ∧
    (s.line 3).state ∈ [.clean, .dirty, .writing] ∧
    (s.line 3).backing = e.desc.backing + BitVec.ofNat 32 (8 * ((r.addr.toNat - s.cm.config.spanBase.toNat) % 2048 / 8)) ∧
    (∀ j, (s.line j).inUse → (s.line j).backing = (s.line 3).backing → j = 3) ∧
    (evaluate (addOp 3) (s.line 3).record).fired = true ∧ s.ring.queue.length < 8 ∧
    { s with ring := { s.ring with state := .active } }.ring.state ≠ .inactive := by decide +kernel

/-- A request through a window of each KIND; a DIRECT access over a DIRTY line, and clear of it, in HALTED. -/
theorem witness_RequestsAreExecutedByKind :
    let s (m : Mode) := withLine (lineIn .dirty) (inMode m)
    let w := request .write 0x40002810 (.single .b8) [1, 0, 0, 0, 0, 0, 0, 0]
    let r := request .read 0x40002810 (.single .b8) []
    (∀ kind, (window kind).kind = kind) ∧ w.kind = .write ∧ r.kind = .read ∧ r.readId = some 0 ∧
    r.shape = .single .b8 ∧ 0 < w.shape.bytes ∧ (s .active).cm.mode = .active ∧ (s .halted).cm.mode = .halted ∧
    (s .bypass).cm.mode = .bypass ∧ accumulateOp (window .accumulate).params.op = some .add ∧
    (s .halted).clearOf 0x12000018 8 ∧ ¬ (s .halted).clearOf 0x12000010 8 ∧ ¬ (s .halted).clearOf 0x12000017 1 := by
  refine ⟨by rintro (_ | _ | _ | _) <;> rfl, ?_⟩
  decide +kernel

/-- A FREE line below others; no line FREE with a CLEAN, a DIRTY or no victim; a FILLING line with 7 and 8 entries. -/
theorem witness_OperationsFindTheirLine :
    let all (st : LineState) (order : List (Fin 64)) : State :=
      { inMode .active with acc := { AccCache.reset with lines := Vector.replicate 64 (lineIn st), order := order } }
    let filling (n : Nat) : State :=
      withLine { lineIn .filling with pending := List.replicate n (addOp 1) } (inMode .active)
    (State.reset.line 0).state = .free ∧ ((all .clean [5]).line 5).state = .clean ∧
    (∀ i, ((all .clean [5]).line i).state ≠ .free) ∧ ((all .dirty [5]).line 5).state = .dirty ∧
    (∀ i, ((all .filling []).line i).state = .filling ∨ ((all .filling []).line i).state = .writing) ∧
    State.reset.allocation = .take 0 ∧ (∀ j, (State.reset.line j).inUse → (State.reset.line j).backing ≠ 0x12000010) ∧
    ((filling 7).line 3).state = .filling ∧ ((filling 7).line 3).pending.length < 8 ∧
    ((filling 8).line 3).pending.length = 8 ∧
    (∀ j, ((filling 8).line j).inUse → ((filling 8).line j).backing = ((filling 8).line 3).backing → j = 3) := by
  decide +kernel

/-- A CLEAN, a DIRTY and a WRITING line, and an operation of each kind. -/
theorem witness_OperationsFindTheirLine_atOnce : ∀ st ∈ [LineState.clean, .dirty, .writing],
    let s := withLine (lineIn st) (inMode .active)
    (s.line 3).state ∈ [LineState.clean, .dirty, .writing] ∧
    (∀ j, (s.line j).inUse → (s.line j).backing = (s.line 3).backing → j = 3) := by decide +kernel

/-- An operation held for want of a line, beside a line whose write-back and one whose fill completes. -/
theorem witness_OperationsFindTheirLine_held :
    let all (st : LineState) (order : List (Fin 64)) : State :=
      { inMode .active with acc := { AccCache.reset with lines := Vector.replicate 64 (lineIn st), order := order } }
    let r := request .write 0x40002818 (.single .b4) [1, 0, 0, 0]
    let h (st : LineState) := holding r (.operation (addOp 1) 0x12000018) (all st [])
    (all .dirty [5]).allocation = .evict 5 ∧ (all .writing []).allocation = .wait ∧
    (∀ j, ((all .dirty [5]).line j).inUse → ((all .dirty [5]).line j).backing ≠ 0x12000018) ∧
    (h .writing).path = some ⟨r, .operation (addOp 1) 0x12000018⟩ ∧ (h .writing).cm.leaving ≠ .draining ∧
    (inFlush (h .writing)).path = some ⟨r, .operation (addOp 1) 0x12000018⟩ ∧
    (inFlush (h .writing)).cm.leaving ≠ .draining ∧ (inFlush (h .writing)).flushing = true ∧
    ((h .writing).line 3).state = .writing ∧ ((h .filling).line 3).state = .filling := by decide +kernel

theorem witness_CounterReadsTakeTheRecord :
    let s (st : LineState) := withLine (lineIn st) (inMode .active)
    let r := request .read 0x40002810 (.single .b8) []
    r.readId = some 0 ∧ ((s .writing).line 3).state ∈ [LineState.clean, .dirty, .writing] ∧
    ((s .filling).line 3).state = .filling ∧ ((s .clean).line 3).backing = 0x12000010 ∧
    (∀ j, ((s .clean).line j).inUse → ((s .clean).line j).backing = 0x12000010 → j = 3) ∧
    (∀ j, ((s .clean).line j).inUse → ((s .clean).line j).backing ≠ 0x12000018) := by decide +kernel

/-- A DRAIN read with a line to take, with a victim and with none; and one held beside a line that completes. -/
theorem witness_CounterReadsTakeTheRecord_allocation :
    let all (st : LineState) (order : List (Fin 64)) : State :=
      { inMode .active with acc := { AccCache.reset with lines := Vector.replicate 64 (lineIn st), order := order } }
    let r := request .read 0x40002818 (.single .b8) []
    let h (st : LineState) := holding r (.drainRead 0x12000018 .big) (all st [])
    State.reset.allocation = .take 0 ∧ (all .dirty [5]).allocation = .evict 5 ∧ (all .writing []).allocation = .wait ∧
    (∀ j, ((all .dirty [5]).line j).inUse → ((all .dirty [5]).line j).backing ≠ 0x12000018) ∧
    (h .writing).path = some ⟨r, .drainRead 0x12000018 .big⟩ ∧ (h .filling).cm.leaving ≠ .draining ∧
    (inFlush (h .filling)).path = some ⟨r, .drainRead 0x12000018 .big⟩ ∧
    (inFlush (h .filling)).cm.leaving ≠ .draining ∧ (inFlush (h .filling)).flushing = true ∧
    ((h .writing).line 3).state = .writing ∧ ((h .filling).line 3).state = .filling := by decide +kernel

/-- A FILLING line with an operation that changes the record fetched, and one with none; with a mark, while a FLUSH is in
progress, and without. -/
theorem witness_FillsApplyOrLoseThePendingList :
    let s (ops : List PendingOp) := withLine { lineIn .filling with pending := ops } (inMode .active)
    let m := inFlush (withLine { lineIn .filling with pending := [addOp 1], flushMark := true } (inMode .active))
    ((s [addOp 1]).line 3).state = .filling ∧ (s []).path = none ∧ ((s []).line 3).flushMark = false ∧
    (s []).cm.leaving ≠ .draining ∧ (s []).flushing = false ∧ (m.line 3).state = .filling ∧
    (m.line 3).flushMark = true ∧ m.flushing = true ∧ m.cm.leaving ≠ .draining ∧
    (evaluate (addOp 1) Record.zero).record ≠ Record.zero ∧ ((s [addOp 1]).line 3).pending ≠ [] := by decide +kernel

/-- A read of each view that waits on the line whose fill completes. -/
theorem witness_FillsApplyOrLoseThePendingList_waiting :
    let r := request .read 0x40002810 (.single .b8) []
    let s (view : View) := holding r (.onLine 3 view) (withLine { lineIn .filling with pending := [addOp 1] } (inMode .active))
    (∀ view ∈ [View.drain .big, .presented .little 0 .b8, .clamped .big .b8], (s view).path = some ⟨r, .onLine 3 view⟩ ∧
      ((s view).line 3).state = .filling ∧ (inFlush (s view)).flushing = true ∧
      (s view).cm.leaving ≠ .draining) ∧ r.readId = some 0 := by decide +kernel

/-- A walk, a counter read and a read on line 4, each held when the fill or the write-back of line 3 completes, in the
drain and in a FLUSH. -/
theorem witness_FillsApplyOrLoseThePendingList_kept :
    let r := request .read 0x40002818 (.single .b8) []
    ∀ stage ∈ [Stage.walking, .counterRead 0x12000018 (.clamped .big .b8), .onLine 4 (.drain .big)],
      ∀ l ∈ [lineIn .filling, lineIn .writing], ∀ s ∈ [draining l, inFlush (withLine l (inMode .active))],
        (holding r stage s).path = some ⟨r, stage⟩ ∧ (4 : Fin 64) ≠ 3 ∧
        (l.state = .filling → ((holding r stage s).completeFill 3 .okay 0).path = some ⟨r, stage⟩) ∧
        (l.state = .writing → ((holding r stage s).completeWriteBack 3 .okay).path = some ⟨r, stage⟩) := by
  decide +kernel

theorem witness_WriteBacksAreStartedAndSettled :
    let s (l : Line) := withLine l (inMode .active)
    (s (lineIn .dirty)).current ∧ ((s { lineIn .dirty with age := some 10 }).line 3).age.isSome = true ∧
    (s (lineIn .dirty)).path = none ∧ ((s (lineIn .writing)).line 3).state = .writing ∧
    ((s (lineIn .writing)).line 3).redirty = false ∧ ((s { lineIn .writing with redirty := true }).line 3).redirty = true ∧
    ((s { lineIn .writing with evict := true }).line 3).evict = true ∧ (s (lineIn .writing)).cm.leaving ≠ .draining ∧
    (inFlush (s (lineIn .writing))).flushing = true ∧ (inFlush (s (lineIn .writing))).path = none ∧
    ((s (lineIn .filling)).line 3).state = .filling ∧ ((s (lineIn .clean)).line 3).state = .clean := by decide +kernel

/-- An age timer that runs out beside a forwarded read over its line, and beside a counter read. -/
theorem witness_WriteBacksAreStartedAndSettled_held :
    let r := request .read 0x12000010 (.single .b8) []
    let s (stage : Stage) := holding r stage (withLine { lineIn .dirty with age := some 10 } (inMode .active))
    let stage := Stage.counterRead 0x12000018 (.clamped .big .b8)
    (s stage).current ∧ ((s stage).line 3).state = .dirty ∧ ((s stage).line 3).age.isSome = true ∧
    (s (.forward 0x12000010 false)).path = some ⟨r, .forward 0x12000010 false⟩ ∧ (s stage).path = some ⟨r, stage⟩ ∧
    (∀ addr direct, stage ≠ .forward addr direct) :=
  ⟨by decide +kernel, by decide +kernel, by decide +kernel, rfl, rfl, nofun⟩

/-- A forwarded write over a DIRTY line, held; one clear of it, by a byte; and a read over a CLEAN line. -/
theorem witness_SettlingTreatsEveryLineTheAccessMeets :
    let w := request .write 0x12000017 (.single .b1) [1]
    let s := holding w (.forward 0x12000017 false) (withLine (lineIn .dirty) (inMode .active))
    let c := holding (request .read 0x12000010 (.single .b8) []) (.forward 0x12000010 false)
      (withLine (lineIn .clean) (inMode .active))
    0 < w.shape.bytes ∧ s.path = some ⟨w, .forward 0x12000017 false⟩ ∧ s.cm.leaving ≠ .draining ∧
    s.offer .path = none ∧ (c.offer .path).isSome = true ∧
    max (0x12000017 : Addr).toNat (s.line 3).backing.toNat < min ((0x12000017 : Addr).toNat + 1)
      ((s.line 3).backing.toNat + 8) ∧
    ¬ max (0x12000018 : Addr).toNat (s.line 3).backing.toNat < min ((0x12000018 : Addr).toNat + 1)
      ((s.line 3).backing.toNat + 8) := by decide +kernel

/-- A forwarded write held beside a line whose write-back completes, and one whose fill does: in ACTIVE, in a FLUSH and in
the drain. -/
theorem witness_SettlingTreatsEveryLineTheAccessMeets_completions :
    let w := request .write 0x12000017 (.single .b1) [1]
    ∀ st ∈ [LineState.writing, .filling], ∀ s ∈ [withLine (lineIn st) (inMode .active),
        inFlush (withLine (lineIn st) (inMode .active)), draining (lineIn st)],
      (holding w (.forward 0x12000017 false) s).path = some ⟨w, .forward 0x12000017 false⟩ ∧ 0 < w.shape.bytes ∧
      ((holding w (.forward 0x12000017 false) s).line 3).state = st := by decide +kernel

/-- Requests held when a write-back fails: one to be refused and one whose fill is withdrawn. -/
theorem witness_AFailedWriteBackHalts_held :
    let s := withLine (lineIn .writing) (inMode .active)
    let r := request .read 0x40002810 (.single .b8) []
    let f : State := { s with acc := { s.acc with fillQueue := [5], writeQueue := [6] } }
    (holding r (.operation (addOp 1) 0x12000018) s).path = some ⟨r, .operation (addOp 1) 0x12000018⟩ ∧
    (holding r (.forward 0x12000010 false) s).path = some ⟨r, .forward 0x12000010 false⟩ ∧
    (holding r (.onLine 5 (.drain .little)) f).path = some ⟨r, .onLine 5 (.drain .little)⟩ ∧ 5 ∈ f.acc.fillQueue ∧
    6 ∈ f.acc.writeQueue ∧ r.readId = some 0 ∧ (s.line 3).inUse ∧
    max (0x12000010 : Addr).toNat (s.line 3).backing.toNat < min ((0x12000010 : Addr).toNat + r.shape.bytes)
      ((s.line 3).backing.toNat + 8) ∧
    { s.cm with inProgress := some .link }.inProgress = some .link ∧ s.cm.mirror.acks.length < 4 := by decide +kernel

theorem witness_AFailedWriteBackHalts :
    let s := withLine (lineIn .writing) (inMode .draining)
    (s.line 3).state = .writing ∧ s.cm.mode = .draining ∧ (inMode .active).cm.mode = .active ∧
    { s.cm with inProgress := some (.block .deactivate 1) }.inProgress = some (.block .deactivate 1) ∧
    { s.cm with inProgress := some (.block .activate 1) }.inProgress = some (.block .activate 1) := by decide +kernel

/-- A locked update whose LOCKED_READ is offered and not granted (log 15), and a counter read still waiting for its grant
(log 16), held when a write-back fails in ACTIVE or DRAINING: they go on. -/
theorem witness_AFailedWriteBackHalts_goesOn :
    let r := request .read 0x40002818 (.single .b8) []
    ∀ m ∈ [Mode.active, .draining], ∀ stage ∈ [Stage.walking, .counterRead 0x12000018 (.clamped .big .b8)],
      let s := { holding r stage (withLine (lineIn .writing) (inMode m)) with
        walker := { Walker.idle with phase := .locked } }
      (s.line 3).state = .writing ∧ s.cm.mode = m ∧ s.path = some ⟨r, stage⟩ ∧ s.walker.issued = false ∧
      (s.offer .path).isSome = true ∧ (s.completeWriteBack 3 .error).cm.mode = .halted ∧
      (s.completeWriteBack 3 .error).path = some ⟨r, stage⟩ := by decide +kernel

/-- A write-back that fails in HALTED; and DRAIN_START in force, placed, and neither. -/
theorem witness_AFailedWriteBackHalts_again :
    let s := withLine (lineIn .writing) (inMode .halted)
    let h (hold placed : Option Hold) : ControlMonitor := { (inMode .draining).cm with hold := hold, placed := placed }
    (s.line 3).state = .writing ∧ s.cm.mode = .halted ∧ (h (some .drainStart) none).hold = some .drainStart ∧
    (h none (some .drainStart)).placed = some .drainStart ∧ (h (some .ringLoad) none).hold = some .ringLoad ∧
    Hold.ringLoad ≠ .drainStart := by decide +kernel

theorem witness_TheUpstreamPortKeepsOrder :
    let full := { State.reset with up := { State.reset.up with
      intake := List.replicate 16 (request .read 0 (.single .b1) []) } }
    let answered (a : Option Answer) : List ReadEntry := [⟨0, 6, 8, a⟩]
    (BusRequest.mk .write 0 (.burst 8) 0 0 .usr).wf = true ∧ State.reset.acceptHigh = true ∧ full.acceptHigh = false ∧
    State.reset.running ∧ (∀ e ∈ answered (some (faultAnswer 8)), e.answer ≠ none) ∧
    (∀ e ∈ answered none, e.answer = none) ∧ State.reset.up.reads = [] := by decide +kernel

/-- After reset the write-back engine, the fill engine, the path and the ring offer nothing, and the mirror offers. -/
theorem witness_TheArbiterGrantsInItsCycle :
    let s := State.reset
    s.current ∧ (s.down.slot 0).state = .free ∧
    s.down.lastGranted.cycle = [.writeBack, .fill, .path, .ring] ++ .mirror :: [] ∧ s.down.lock = none ∧
    (∀ w ∈ [Requester.writeBack, .fill, .path, .ring], s.offer w = none) ∧ (s.offer .mirror).isSome = true ∧
    (∀ i, ((s.down.mapSlots fun _ => ⟨.stale true, false⟩).slot i).state ≠ .free) ∧
    (let t := { s with down := { s.down with lock := some 0x20001050 } }
     ∀ w ∈ t.down.candidates, t.offer w = none) ∧
    (let c : State := { s with cm := { s.cm with hold := some .activateLoad, configRead := .offered } }
     c.offer .path = some (.read 0x10000 (.burst 8), .configRead)) ∧
    (let l := holding (request .write 0x40002810 (.single .b4) [1, 0, 0, 0]) .walking
       { s with walker := { Walker.idle with phase := .locked, descAddr := 0x20001050 } }
     l.offer .path = some (.lockedRead 0x20001050, .lockedRead)) := by decide +kernel

/-- A line at the head of each engine's queue. -/
theorem witness_TheArbiterGrantsInItsCycle_engines :
    let c : AccCache := { AccCache.reset with writeQueue := [3, 4], fillQueue := [5] }
    c.writeQueue = 3 :: [4] ∧ c.fillQueue = 5 :: [] ∧ State.reset.acc.writeQueue = [] ∧ State.reset.acc.fillQueue = [] := by
  decide

theorem witness_ForwardedWritesAreObservedAtIssue :
    let r := request .write 0x10040 (.single .b8) [1, 7, 0, 0, 0, 0, 0, 0]
    let s := holding r (.forward 0x10040 false) State.reset
    s.current ∧ s.path = some ⟨r, .forward 0x10040 false⟩ ∧ r.kind = .write ∧
    s.grantee = some .path ∧ s.down.freeSlot = some 0 ∧
    controlWords s.cm.cbBase 0x10040 r.shape r.data = [.request 1 7] := by decide +kernel

/-- A word that waits with another behind it, and commands that come after it. -/
theorem witness_ForwardedWritesAreObservedAtIssue_words :
    let s : State := { State.reset with cm := { State.reset.cm with recognised := [.request 3 1, .consumed 6] } }
    s.running ∧ s.cm.recognised = .request 3 1 :: [.consumed 6] ∧ (ControlWord.request 3 1).instr = .purge 1 ∧
    meetsWords .ringReleased = true ∧ takesItsWord (.consumedWrite 6) = true ∧ Instr.consumedWrite 6 ≠ .purge 1 := by
  decide

theorem witness_WordsAreRecognisedByExactCover : 2 ≤ [(1 : Byte), 7, 0, 0, 0, 0, 0, 0].length ∧ Size.b4 ≠ .b8 ∧
    (List.replicate 16 (5 : Byte)).length = 8 * 2 ∧
    controlWords 0x10000 0x10040 (.burst 2) (List.replicate 16 5) = [.request 5 5, .consumed 0x505] := by decide +kernel

theorem witness_ResponsesThatCompleteNothing :
    let s (x : Slot) (order : List (Fin 8)) := withSlot x order State.reset
    (s ⟨.free, true⟩ []).cm.recognised = [] ∧ ((s ⟨.free, true⟩ []).down.slot 2).owes = true ∧
    ((s ⟨.free, false⟩ []).down.slot 2).state = .free ∧
    ((s ⟨.held (.read 0x100 (.single .b8)) (.forwardedRead 0 8) .okay 0, false⟩ [0, 2]).down.slot 2).state =
      .held (.read 0x100 (.single .b8)) (.forwardedRead 0 8) .okay 0 ∧
    ((s ⟨.stale true, false⟩ []).down.slot 2).state = .stale true ∧
    ((s ⟨waiting, false⟩ [0, 2]).down.slot 2).state = .waiting (.read 0x100 (.single .b8)) (.forwardedRead 0 8) ∧
    (s ⟨waiting, false⟩ [0, 2]).down.issueOrder.head? ≠ some 2 := by decide +kernel

/-- A WAITING slot alone, and one with a HELD slot and a WAITING slot behind it. -/
theorem witness_TheOldestRequestCompletes :
    let held : Slot := ⟨.held (.read 0x108 (.single .b8)) (.forwardedRead 1 8) .okay 0, false⟩
    let s := withSlot ⟨waiting, false⟩ [2] State.reset
    let u : State := { s with down := { (s.down.setSlot 5 held).setSlot 6 ⟨waiting, false⟩ with
      issueOrder := [2, 5, 6] } }
    s.running ∧ s.cm.recognised = [] ∧
    (s.down.slot 2).state = .waiting (.read 0x100 (.single .b8)) (.forwardedRead 0 8) ∧
    s.down.issueOrder = 2 :: ([] ++ []) ∧ s.down.issueOrder.Nodup ∧ (s.down.slot 2).owes = false ∧
    u.down.issueOrder = 2 :: ([5] ++ [6]) ∧ u.down.issueOrder.Nodup ∧
    (u.down.slot 5).state = .held (.read 0x108 (.single .b8)) (.forwardedRead 1 8) .okay 0 ∧
    (u.down.slot 6).state.isWaiting = true := by decide +kernel

/-- A ring in each state, with 7 and 8 records queued, with room and full. -/
theorem witness_RecordsAreQueuedAndTaken :
    let s (st : RingState) (n : Nat) (produced : BitVec 16) : State := { State.reset with ring := { State.reset.ring with
      state := st, queue := List.replicate n event, produced := produced } }
    State.reset.ring.state = .inactive ∧ (s .active 7 0).ring.queue.length < 8 ∧ 8 ≤ (s .active 8 0).ring.queue.length ∧
    (s .active 1 0).current ∧ (s .active 1 0).ring.queue = event :: [] ∧
    (s .broken 2 0).ring.queue = event :: [event] ∧ (s .active 1 0).ring.phase = .idle ∧
    (s .active 1 0).ring.restart = none ∧
    ((s .active 1 16).ring.produced - (s .active 1 16).ring.consumed).toNat = 2 ^ (s .active 1 16).ring.size ∧
    ¬ ((s .active 1 15).ring.produced - (s .active 1 15).ring.consumed).toNat = 2 ^ (s .active 1 15).ring.size ∧
    (s .broken 1 0).ring.state = .broken := by decide +kernel

theorem witness_RecordsAreWrittenThenAnnounced :
    let s (phase : RingPhase) (issued : Bool) : State := { State.reset with ring := { State.reset.ring with
      state := .active, phase := phase, issued := issued, inHand := some event } }
    (s .record false).ring.inHand = some event ∧ (s .record false).ring.zeroWrite = none ∧
    (s .record false).ring.phase = .record ∧ (s .record false).ring.issued = false ∧
    (s .index true).ring.phase = .index ∧ (s .index true).ring.issued = true := by decide +kernel

/-- CONSUMED up to PRODUCED, and one beyond it. -/
theorem witness_ConsumedIsJudgedAgainstTheRing :
    let s : State := { State.reset with
      ring := { State.reset.ring with state := .active, produced := 6, consumed := 5 }
      cm := { State.reset.cm with recognised := [.consumed 6] } }
    s.takesWord (.consumed 6) ∧ State.reset.takesWord (.consumed 7) ∧
    ((6 : BitVec 16) - s.ring.consumed).toNat ≤ (s.ring.produced - s.ring.consumed).toNat ∧
    ¬ ((7 : BitVec 16) - s.ring.consumed).toNat ≤ (s.ring.produced - s.ring.consumed).toNat ∧
    s.ring.state ≠ .inactive ∧ State.reset.ring.state = .inactive := by decide +kernel

theorem witness_ARestartIsCarriedOut :
    let s : State := { State.reset with ring := { State.reset.ring with restart := some (0x08000000, 5) } }
    s.current ∧ s.ring.restart = some (0x08000000, 5) ∧ s.ring.phase = .idle := by decide +kernel

theorem witness_TheReleaseEndsInBypass :
    let s (q : ControlRequest) : State := { inMode .draining with cm := { (inMode .draining).cm with
      leaving := .releasing, inProgress := some q } }
    (s .link).current ∧ (s .link).cm.leaving = .releasing ∧ (s .link).ring.restart = none ∧ (s .link).ring.queue = [] ∧
    (s .link).ring.phase = .idle ∧ (s .link).cm.inProgress = some .link ∧
    (s (.block .deactivate 9)).cm.inProgress = some (.block .deactivate 9) ∧ (s .link).cm.mirror.acks.length < 4 := by
  decide +kernel

/-- A state in a mode whose next word is a REQUEST of a code and a tag. -/
def withWord (m : Mode) (code tag : Byte) : State :=
  { inMode m with cm := { (inMode m).cm with recognised := [.request code tag] } }

theorem witness_RequestsAreRefusedInOrder :
    let busy : State := { withWord .active 3 1 with cm := { (withWord .active 3 1).cm with inProgress := some .link } }
    (withWord .bypass 0 1).takesWord (.request 0 1) ∧ (withWord .bypass 7 1).takesWord (.request 7 1) ∧
    7 ≤ (7 : Byte).toNat ∧ busy.takesWord (.request Command.purge.code 1) ∧ busy.cm.inProgress ≠ none ∧
    (withWord .bypass 3 1).takesWord (.request Command.purge.code 1) ∧ (withWord .bypass 3 1).cm.inProgress = none ∧
    (withWord .bypass 3 1).cm.mode ≠ .active ∧ ¬ { withWord .bypass 3 2 with pins := ⟨true, true⟩ }.running := by
  decide +kernel

theorem witness_LoadsPlaceTheirHold :
    (withWord .bypass 1 1).takesWord (.request Command.activate.code 1) ∧ (withWord .bypass 1 1).cm.mode = .bypass ∧
    (withWord .active 5 1).takesWord (.request Command.ringRestart.code 1) ∧ (withWord .active 5 1).cm.mode = .active ∧
    (withWord .active 5 1).cm.inProgress = none ∧ (withWord .active 5 1).path = none ∧
    (withWord .active 5 1).cm.hold = none ∧
    (holding (request .read 0 (.single .b1) []) .walking (withWord .active 5 1)).path ≠ none := by decide +kernel

theorem witness_DeactivateActsByMode : ∀ m ∈ [Mode.bypass, .active, .halted],
    (withWord m 2 1).takesWord (.request 2 1) ∧ (withWord m 2 1).cm.inProgress = none ∧ (withWord m 2 1).cm.mode = m := by
  decide +kernel

theorem witness_PurgeAndClearStatusAreDoneAtOnce :
    (withWord .active 3 1).takesWord (.request 3 1) ∧ (withWord .active 3 1).cm.mode = .active ∧
    (withWord .halted 6 1).takesWord (.request 6 1) ∧ (withWord .halted 6 1).cm.inProgress = none := by decide +kernel

/-- FLUSH with a mark left (a DIRTY line), and with none (no line). -/
theorem witness_FlushMarksAndWritesLines :
    let s := withLine (lineIn .dirty) (withWord .active 4 1)
    s.takesWord (.request 4 1) ∧ s.cm.inProgress = none ∧ s.cm.mode = .active ∧ s.dirtyLines = [3] ∧
    (withWord .active 4 1).takesWord (.request 4 1) ∧ (withWord .active 4 1).dirtyLines = [] ∧
    (let f (covers redirty : Bool) : State :=
       let l := { lineIn .writing with flushMark := true, covers := covers, redirty := redirty }
       inFlush (withLine l (inMode .active))
     ((f true true).line 3).state = .writing ∧ ((f true true).line 3).flushMark = true ∧ (f true true).path = none ∧
       (f true true).cm.leaving ≠ .draining ∧ (f true true).cm.inProgress = some (.block .flush 1) ∧
       ((f true true).line 3).covers = true ∧ ((f false false).line 3).redirty = false ∧
       ¬ (((f false true).line 3).covers = true ∨ ((f false true).line 3).redirty = false)) := by decide +kernel

/-- A marked FILLING line as fetched and with an operation that changes it; and an operation held on its full list. -/
theorem witness_FlushMarksAndWritesLines_filling :
    let s (n : Nat) : State :=
      inFlush
        (withLine { lineIn .filling with pending := List.replicate n (addOp 1), flushMark := true } (inMode .active))
    let h := holding (request .write 0x40002810 (.single .b4) [1, 0, 0, 0]) (.operation (addOp 1) 0x12000010) (s 8)
    ((s 0).line 3).state = .filling ∧ ((s 0).line 3).flushMark = true ∧ (s 0).path = none ∧
    (s 0).cm.leaving ≠ .draining ∧ (s 0).cm.inProgress = some (.block .flush 1) ∧
    ((s 8).line 3).pending.foldl (fun x op => (evaluate op x).record) Record.zero ≠ Record.zero ∧
    (h.path.map (·.stage)) = some (.operation (addOp 1) (h.line 3).backing) ∧
    (∀ j, (h.line j).inUse → (h.line j).backing = (h.line 3).backing → j = 3) := by decide +kernel

theorem witness_TheDrainAndTheDiscardFreeLines :
    let d := withLine (lineIn .dirty) { inMode .draining with cm := { (inMode .draining).cm with
      hold := some .drainStart, leaving := .starting } }
    let h : State := { inMode .halted with cm := { (inMode .halted).cm with leaving := .discarding } }
    let f := withSlot ⟨.waiting (.read 0x12000010 (.single .b8)) (.fill 3), false⟩ [2] h
    d.current ∧ d.cm.hold = some .drainStart ∧ d.cm.leaving = .starting ∧ d.cm.placed = none ∧
    h.current ∧ h.cm.leaving = .discarding ∧ h.down.cacheInFlight = false ∧ f.cm.leaving = .discarding ∧
    (f.down.slot 2).state = .waiting (.read 0x12000010 (.single .b8)) (.fill 3) := by decide +kernel

/-- A drain with a WRITING line, and one with a FILLING line that an operation changes. -/
theorem witness_TheDrainAndTheDiscardFreeLines_progress :
    let s (l : Line) := draining l
    (s (lineIn .writing)).path = none ∧ (s (lineIn .writing)).cm.leaving = .draining ∧
    (s (lineIn .writing)).flushing = false ∧ ((s (lineIn .writing)).line 3).flushMark = false ∧
    ((s { lineIn .writing with redirty := true }).line 3).redirty = true ∧
    ((s (lineIn .filling)).line 3).state = .filling ∧ ((s (lineIn .filling)).line 3).pending = [] ∧
    (evaluate (addOp 1) Record.zero).record ≠ Record.zero := by decide +kernel

/-- A valid configuration: the span at 4000_0000h of 256 KiB, the directory at 2000_0000h and a ring of 32 records at
0800_0000h. -/
def configData : Payload :=
  BitVec.ofNat 512 (0x40000000 + 0x20000000 * 2 ^ 64 + 0x08000000 * 2 ^ 128 + 5 * 2 ^ 160 + 10 * 2 ^ 192)

theorem witness_ActivateLoadsTheConfiguration :
    let s (st : ConfigRead) : State := { inMode .bypass with cm := { (inMode .bypass).cm with
      inProgress := some (.block .activate 1), hold := some .activateLoad, configRead := st } }
    let z : State := { s .idle with ring := { State.reset.ring with
      state := .active, phase := .index, issued := true, zeroWrite := some .activate } }
    (s (.inFlight false)).cm.inProgress = some (.block .activate 1) ∧ (s (.inFlight false)).cm.placed = none ∧
    (s (.inFlight false)).cm.hold = some .activateLoad ∧ (s (.inFlight false)).cm.configRead = .inFlight false ∧
    validateActivate 0x10000 .okay (.decode configData) = none ∧
    validateActivate 0x10000 .error (.decode configData) = some .configReadError ∧
    z.ring.zeroWrite = some .activate ∧ z.ring.phase = .index ∧ z.ring.issued = true ∧ z.ring.inHand = none := by
  decide +kernel

theorem witness_RingRestartLoadsBaseAndSize :
    let s : State := { inMode .active with
      ring := { State.reset.ring with state := .active, phase := .index, issued := true, zeroWrite := some .restart }
      cm := { (inMode .active).cm with
        inProgress := some (.block .ringRestart 1), hold := some .ringLoad, configRead := .inFlight false } }
    s.cm.inProgress = some (.block .ringRestart 1) ∧ s.cm.placed = none ∧ s.cm.hold = some .ringLoad ∧
    s.cm.configRead = .inFlight false ∧ validateRestart s.cm.cbBase s.cm.config .okay (.decode configData) = none ∧
    validateRestart s.cm.cbBase s.cm.config .okay (.decode 0) = some .ringSizeBad ∧
    s.ring.zeroWrite = some .restart ∧ s.ring.phase = .index ∧ s.ring.issued = true ∧
    (let a : ControlMonitor := { s.cm with configRead := .inFlight true, placed := some .drainStart }
     a.configRead = .inFlight true ∧ a.hold = some .ringLoad ∧ a.placed = some .drainStart) ∧ s.path = none := by
  decide +kernel

/-- The mirror after reset has MODE_STATUS pending; with the earlier indicators clear, each later word comes first. -/
theorem witness_TheMirrorWritesInItsOrder :
    let m := Mirror.reset
    m.inFlight = false ∧ m.modePending = true ∧ { m with inFlight := true }.inFlight = true ∧
    { m with modePending := false }.next = some .status ∧
    { m with modePending := false, statusPending := false, faultPending := true }.next = some .lastFault ∧
    { m with modePending := false, statusPending := false }.next = some .produced ∧
    { m with modePending := false, statusPending := false, producedPending := false }.next = some (.ack Ack.zeros) := by
  decide

theorem witness_AcksAndFaultsAreKept : Mirror.reset.acks.length < 4 ∧
    4 ≤ { Mirror.reset with acks := List.replicate 4 Ack.zeros }.acks.length ∧ State.reset.cm.latch = ⟨none, false⟩ ∧
    (⟨some event, true⟩ : FaultLatch).record = some event := by decide +kernel

/-- A link in each case of a character: waiting for the stop level, in DISCARD, with room and full; and of a gap. -/
theorem witness_CharactersAreReceived :
    let l := Link.reset 0
    let even (data : Byte) (parity : Bool) := decide (((List.range 8).countP data.getLsbD + parity.toNat) % 2 = 0)
    State.reset.running ∧ l.awaitStop = false ∧ { l with awaitStop := true }.awaitStop = true ∧
    (true && even 0x03 false) = true ∧ (true && even 0x03 true) = false ∧ (false && even 0x03 false) = false ∧
    l.discard = false ∧ { l with discard := true }.discard = true ∧ l.buffer.length < 8 ∧
    8 ≤ { l with buffer := List.replicate 8 ⟨3, false⟩ }.buffer.length ∧ l.gapRunning = false ∧
    { l with gapRunning := true }.gapRunning = true ∧ l.buffer = [] ∧
    { l with parser := .assembling [3] }.parser = .assembling [3] ∧ l.receiving = false := by decide +kernel

/-- MLRTS at 5 bytes and at 6. -/
theorem witness_CharactersAreReceived_mlrts :
    let s (n : Nat) : State := { State.reset with link := { Link.reset 0 with buffer := List.replicate n ⟨3, false⟩ } }
    (s 5).running ∧ (s 5).link.buffer.length ≤ 5 ∧ (s 5).mlrtsAsserted = true ∧ 6 ≤ (s 6).link.buffer.length ∧
    (s 6).mlrtsAsserted = false ∧ ¬ { s 5 with pins := ⟨true, true⟩ }.running ∧
    { s 5 with pins := ⟨true, true⟩ }.mlrtsAsserted = false := by decide +kernel

/-- The parser is not assembling after reset. -/
theorem witness_CharactersAreReceived_between_frames : ∀ taken, (Link.reset 0).parser ≠ .assembling taken := nofun

/-- An incomplete frame; a wrong check; an unknown opcode; READ; WRITE. -/
theorem witness_FramesAreAssembledAndJudged :
    let s (taken : List Byte) (b : Byte) (gap : Bool) : State := { State.reset with link := { Link.reset 0 with
      buffer := [⟨b, gap⟩], parser := .assembling taken } }
    let check (f : List Byte) := f.getLast? = some f.dropLast.sum
    (s [] 1 false).running ∧ (s [1, 1] 2 false).link.buffer = ⟨2, false⟩ :: [] ∧
    (s [1, 1] 2 true).link.parser = .assembling [1, 1] ∧ State.reset.link.parser = .idle ∧
    check [1, 1, 2] ∧ ¬ check [1, 1, 3] ∧ check [9, 1, 10] ∧ check [0, 0, 0] ∧ check [2, 6, 0, 0, 1, 2, 0x0B] ∧
    5 < (9 : Byte).toNat ∧ [2, 6, 0, 0, 1, 2, 0x0B].take 6 = [(2 : Byte), 6, 0, 0, 1, 2] := by decide +kernel

theorem witness_RegistersAreReadAndGuarded :
    let full : State := { State.reset with cm := { State.reset.cm with mirror := { Mirror.reset with
      acks := List.replicate 4 Ack.zeros } } }
    (∀ n ∈ [(0 : Byte), 6, 7, 0x0F, 0x10, 0x17, 0x18], State.reset.takesCommand (.read n) ∧
      State.reset.takesCommand (.write n 0)) ∧
    State.reset.takesCommand (.write 6 0x02010000) ∧ State.reset.cm.recognised = [] ∧
    (0x02010000 : BitVec 32).toNat % 256 = 0 ∧ ¬ (0x02010001 : BitVec 32).toNat % 256 = 0 ∧
    State.reset.cm.mode = .bypass ∧ State.reset.cm.inProgress = none ∧ State.reset.cm.mirror.acks.length < 4 ∧
    full.takesCommand (.write 6 0x02010000) ∧ 4 ≤ full.cm.mirror.acks.length := by decide +kernel

theorem witness_TheLinkForcesBypassAndClears :
    let s (m : Mode) (q : Option ControlRequest) : State := { inMode m with cm := { (inMode m).cm with inProgress := q } }
    (s .active none).takesCommand .forceBypass ∧ (s .halted none).cm.mode = .halted ∧
    (s .draining (some (.block .deactivate 1))).cm.inProgress = some (.block .deactivate 1) ∧
    (s .draining (some .link)).cm.inProgress = some .link ∧
    (s .active (some (.block .flush 1))).cm.inProgress = some (.block .flush 1) ∧ Command.flush ≠ .deactivate ∧
    State.reset.takesCommand .clearFlags ∧ State.reset.takesCommand .restart ∧
    { (s .bypass none).cm with configRead := .inFlight false, hold := some .activateLoad }.configRead = .inFlight false := by
  decide +kernel

/-- A request in progress in each mode, with an ACK list that has room and a full one, and a configuration read that is
offered and one in flight. -/
theorem witness_TheLinkForcesBypassAndClears_abandoned :
    let s (m : Mode) (c : Command) (acks : List Ack) (read : ConfigRead) : State :=
      { inMode m with cm := { (inMode m).cm with
        inProgress := some (.block c 7), configRead := read, mirror := { Mirror.reset with acks := acks } } }
    let full := s .bypass .activate (List.replicate 4 Ack.zeros) .offered
    let room := s .active .flush [] .idle
    let loading := { s .active .ringRestart [] (.inFlight false) with
      cm := { (s .active .ringRestart [] (.inFlight false)).cm with hold := some .ringLoad } }
    full.takesCommand .forceBypass ∧ full.cm.recognised = [] ∧ 4 ≤ full.cm.mirror.acks.length ∧
    full.cm.configRead = .offered ∧ room.cm.inProgress = some (.block .flush 7) ∧ room.cm.mirror.acks.length < 4 ∧
    room.path = none ∧ room.cm.hold = none ∧ (after .forceBypass full).map (·.cm.inProgress) = some none ∧
    (after .forceBypass room).map (·.cm.hold) = some (some .drainStart) ∧
    (after .forceBypass loading).map (fun t => (t.cm.hold, t.cm.placed)) = some (some .ringLoad, some .drainStart) := by
  decide +kernel

/-- A state whose link sends a response of which some bytes are left. -/
def sending (rest : List Byte) (begun thenRestart : Bool) : State :=
  { State.reset with link := { Link.reset 0 with parser := .responding rest begun thenRestart } }

theorem witness_ResponsesAreSentUnderFlowControl : (sending [0, 1] true false).running ∧
    (sending [0, 1] true false).link.parser = .responding (0 :: 1 :: []) true false ∧
    (sending [0, 1] false false).link.parser = .responding [0, 1] false false ∧
    (sending [1] true false).link.parser = .responding [1] true false ∧
    (sending [0, 1] true false).mltxByte = some 0 ∧ (sending [0, 1] false false).mltxByte = none := by decide +kernel

theorem witness_ResponsesAreSentUnderFlowControl_idle :
    ∀ rest begun r, State.reset.link.parser ≠ .responding rest begun r := nofun

theorem witness_RstnResetsEveryBlock :
    State.reset.running ∧ ¬ { State.reset with pins := ⟨true, true⟩ }.running := by decide

/-- While RSTn is asserted: a command that changes nothing though its condition holds, and a STALE period not started. -/
theorem witness_RstnResetsEveryBlock_asserted :
    let s := { withSlot ⟨.stale false, false⟩ [] State.reset with pins := ⟨true, true⟩ }
    let w := { withSlot ⟨waiting, false⟩ [2] State.reset with pins := ⟨true, true⟩ }
    ¬ s.running ∧ (s.down.slot 2).state = .stale false ∧ after (.stalePeriodExpiry 2) s = some s ∧
    (Instr.responseTimerExpiry 2).wf = true ∧ after (.responseTimerExpiry 2) w = some w := by decide +kernel

theorem witness_TheSoftRestartFollowsItsResponse : (sending [1] true true).running ∧
    (sending [1] true true).link.parser = .responding [1] true true := by decide +kernel

/-- The laws hold of the state after reset, and of a state in ACTIVE with a line in use, a slot waiting and records in
the ring; from either a step is taken. -/
theorem witness_EveryStepKeepsTheLaws :
    let s : State := { withSlot ⟨waiting, false⟩ [2] (withLine (lineIn .dirty) (inMode .active)) with
      windows := [entry .accumulate]
      ring := { State.reset.ring with state := .active, produced := 16, queue := [event] } }
    Sizes s ∧ WindowLaw s ∧ LineLaw s ∧ SlotLaw s ∧ RingLaw s.ring ∧ FatalLaw s ∧ ModeLaw s := by
  refine ⟨?_, ?_, ?_, ?_, ?_, ?_, ?_⟩ <;> decide +kernel

/-- A step that changes the mode from a state in which the law of the modes holds: the release of RSTn in ACTIVE, and a
DEACTIVATE taken in ACTIVE. -/
theorem witness_ModesChangeAsTheSpecSays :
    let s : State := { inMode .active with pins := ⟨true, true⟩ }
    ModeLaw s ∧ (after (.rstnRelease 0 0) s).map (·.cm.mode) = some .bypass ∧ ModeLaw (inMode .active) ∧
    (after (.deactivate 1) (inMode .active)).map (·.cm.mode) = some .draining := by decide +kernel

end Sys2Proof.Tests
end

section
/-! SUPPORT. The arithmetic of the Operation Unit (R7 to R18): the range of VALUE and its two handlings, the rounding of
WADD, the two forms of a new record (a sum, a comparison with the clamped operand), and the statements about them. -/

namespace Sys2Proof.Machine

/-! ### The range of VALUE (R1, R7, R8) -/

theorem valueInRange_iff (x : Int) : valueInRange x = true ↔ -2 ^ 55 ≤ x ∧ x ≤ 2 ^ 55 - 1 :=
  decide_eq_true_iff

theorem valueInRange_eq_false_iff (x : Int) : valueInRange x = false ↔ x < -2 ^ 55 ∨ 2 ^ 55 - 1 < x := by
  rw [← Bool.not_eq_true, valueInRange_iff]; omega

theorem not_valueInRange_eq (x : Int) : (!valueInRange x) = decide (x < -2 ^ 55 ∨ 2 ^ 55 - 1 < x) := by
  rw [Bool.eq_iff_iff, Bool.not_eq_true', valueInRange_eq_false_iff, decide_eq_true_iff]

theorem valueInRange_toInt (v : BitVec 56) : valueInRange v.toInt = true :=
  (valueInRange_iff _).2 ⟨v.le_toInt, Int.le_sub_one_of_lt v.toInt_lt⟩

/-- VALUE holds every number of the range as it is. -/
theorem toInt_ofInt_of_valueInRange {x : Int} (h : valueInRange x = true) : (BitVec.ofInt 56 x).toInt = x := by
  obtain ⟨hl, hu⟩ := (valueInRange_iff x).1 h
  exact BitVec.toInt_ofInt_eq_self (by decide) hl (by omega)

theorem clampValue_eq (x : Int) : clampValue x = max (-2 ^ 55) (min (2 ^ 55 - 1) x) := rfl

theorem valueInRange_clampValue (x : Int) : valueInRange (clampValue x) = true := by
  rw [valueInRange_iff, clampValue_eq]; omega

theorem clampValue_of_valueInRange {x : Int} (h : valueInRange x = true) : clampValue x = x := by
  rw [valueInRange_iff] at h; rw [clampValue_eq]; omega

theorem clampValue_of_not_valueInRange {x : Int} (h : valueInRange x = false) :
    clampValue x = if x < 0 then -2 ^ 55 else 2 ^ 55 - 1 := by
  rw [valueInRange_eq_false_iff] at h; rw [clampValue_eq]; omega

theorem valueInRange_wrapValue (x : Int) : valueInRange (wrapValue x) = true := by
  rw [valueInRange_iff, wrapValue]; omega

theorem wrapValue_of_valueInRange {x : Int} (h : valueInRange x = true) : wrapValue x = x := by
  rw [valueInRange_iff] at h; rw [wrapValue]; omega

theorem valueInRange_rangeValue (policy : Policy) (x : Int) : valueInRange (rangeValue policy x) = true := by
  cases policy with
  | wrap => exact valueInRange_wrapValue x
  | clamp => exact valueInRange_clampValue x

theorem rangeValue_of_valueInRange (policy : Policy) {x : Int} (h : valueInRange x = true) :
    rangeValue policy x = x := by
  cases policy with
  | wrap => exact wrapValue_of_valueInRange h
  | clamp => exact clampValue_of_valueInRange h

/-! ### The value of a comparison (R14 to R17) -/

theorem comparedValue_peak (x old : Int) : comparedValue .peak x old = max old x := by
  simp only [comparedValue]; omega

theorem comparedValue_valley (x old : Int) : comparedValue .valley x old = min old x := by
  simp only [comparedValue]; omega

theorem comparedValue_peakMag (x old : Int) :
    comparedValue .peakMag x old = if |old| < |x| then x else old := by
  simp only [comparedValue, gt_iff_lt, Int.abs_eq_natAbs, Nat.cast_lt]

/-- A comparison returns its operand or the old VALUE. -/
theorem comparedValue_eq_or (kind : OpKind) (x old : Int) :
    comparedValue kind x old = x ∨ comparedValue kind x old = old := by
  cases kind with
  | peak | valley | peakMag => exact ite_eq_or_eq ..
  | load | preset => exact .inl rfl
  | add | tally | wadd | rearm => exact .inr rfl

theorem valueInRange_comparedValue (kind : OpKind) {x old : Int} (hx : valueInRange x = true)
    (hold : valueInRange old = true) : valueInRange (comparedValue kind x old) = true := by
  obtain h | h := comparedValue_eq_or kind x old <;> rwa [h]

/-! ### The record that an operation leaves -/

section

variable {op : PendingOp} {r : Record}

/-- Only VALUE decides with the old record whether the watch fires. -/
theorem watchFires_congr {watch : BitVec 6} {a b : Record} (h : a.value = b.value) :
    watchFires watch r a = watchFires watch r b := by
  simp only [watchFires, h]

/-- The summing kinds are accumulate operations. -/
theorem evaluate_of_exactSum {old exact : Int} (h : exactSum op old = some exact) :
    evaluate op r = evaluateAccumulate op r := by
  cases hk : op.kind with
  | add | tally | wadd => simp only [evaluate, hk]
  | peak | valley | peakMag | load | preset | rearm => simp [exactSum, hk] at h

theorem exactSum_of_compares (h : op.kind ∈ [.peak, .valley, .peakMag, .load, .preset]) (old : Int) :
    exactSum op old = none := by
  simp only [List.mem_cons, List.not_mem_nil, or_false] at h
  obtain h | h | h | h | h := h <;> simp only [exactSum, h]

theorem evaluate_of_compares (h : op.kind ∈ [.peak, .valley, .peakMag, .load]) :
    evaluate op r = evaluateAccumulate op r := by
  simp only [List.mem_cons, List.not_mem_nil, or_false] at h
  obtain h | h | h | h := h <;> simp only [evaluate, h]

theorem evaluate_of_preset (h : op.kind = .preset) : evaluate op r = ⟨evaluatePreset op r, false⟩ := by
  simp only [evaluate, h]

theorem evaluate_of_rearm (h : op.kind = .rearm) : evaluate op r = ⟨evaluateRearm op r, false⟩ := by
  simp only [evaluate, h]

theorem accumulated_of_exactSum {exact : Int} (h : exactSum op r.value.toInt = some exact) :
    accumulated op r = r.withValue (rangeValue op.params.policy exact) (r.ovf || !valueInRange exact) := by
  simp only [accumulated, h]

theorem accumulated_of_compares (h : op.kind ∈ [.peak, .valley, .peakMag, .load, .preset]) :
    accumulated op r = r.withValue (comparedValue op.kind (clampValue op.operand) r.value.toInt)
      (r.ovf || !valueInRange op.operand) := by
  simp only [accumulated, exactSum_of_compares h]

@[simp] theorem accumulated_hit : (accumulated op r).hit = r.hit := by
  unfold accumulated; split <;> rfl

@[simp] theorem accumulated_arm : (accumulated op r).arm = r.arm := by
  unfold accumulated; split <;> rfl

/-- The new VALUE and OVF of a sum (R7, R10 to R12). -/
theorem evaluate_sum {exact : Int} (h : exactSum op r.value.toInt = some exact) :
    (evaluate op r).record.value.toInt = rangeValue op.params.policy exact ∧
      (evaluate op r).record.ovf = (r.ovf || !valueInRange exact) := by
  rw [evaluate_of_exactSum h, evaluateAccumulate, accumulated_of_exactSum h]
  exact ⟨toInt_ofInt_of_valueInRange (valueInRange_rangeValue _ _), rfl⟩

/-- The new record of PEAK, VALLEY, PEAKMAG and LOAD (R8, R14 to R16). -/
theorem evaluate_comparison (h : op.kind ∈ [.peak, .valley, .peakMag, .load]) :
    (evaluate op r).record.value.toInt = comparedValue op.kind (clampValue op.operand) r.value.toInt ∧
      (evaluate op r).record.arm = r.arm ∧ (evaluate op r).record.hit = (r.hit || (evaluate op r).fired) ∧
      (evaluate op r).record.ovf = (r.ovf || !valueInRange op.operand) := by
  have hv := valueInRange_comparedValue op.kind (valueInRange_clampValue op.operand) (valueInRange_toInt r.value)
  rw [evaluate_of_compares h, evaluateAccumulate, accumulated_of_compares (List.mem_append_left [.preset] h)]
  exact ⟨toInt_ofInt_of_valueInRange hv, rfl, rfl, rfl⟩

/-- R8: an operand outside the range acts as any other that is clamped to the same limit, and sets OVF. -/
theorem evaluate_of_clamped_operand (hk : op.kind ∈ [.peak, .valley, .peakMag, .load, .preset]) {x : Int}
    (hout : valueInRange op.operand = false) (hx : clampValue op.operand = clampValue x) :
    (evaluate op r).record = { (evaluate { op with operand := x } r).record with ovf := true } := by
  by_cases hp : op.kind = .preset
  · rw [evaluate_of_preset hp, evaluate_of_preset (op := { op with operand := x }) hp]
    simp [evaluatePreset, Record.withValue, hx, hout]
  · have hk' : op.kind ∈ [.peak, .valley, .peakMag, .load] := by simpa [hp] using hk
    have hv : (accumulated op r).value = (accumulated { op with operand := x } r).value := by
      rw [accumulated_of_compares hk, accumulated_of_compares (op := { op with operand := x }) hk, hx]; rfl
    have ho : (accumulated op r).ovf = true := by
      simp [accumulated_of_compares hk, Record.withValue, hout]
    rw [evaluate_of_compares hk', evaluate_of_compares (op := { op with operand := x }) hk']
    simp [evaluateAccumulate, hv, ho, watchFires_congr hv]

end

/-! ### The increment of WADD (R12, R13) -/

section

variable {p : Params} {operand : Int}

theorem waddIncrement_trunc (h : p.round = .trunc) :
    waddIncrement p operand = operand * p.weight.toInt / 2 ^ p.shift.toNat := by
  simp only [waddIncrement, h]

/-- Halves up is the floor of P / 2^SHIFT + 1/2, also where SHIFT is 0. -/
theorem waddIncrement_halfUp (h : p.round = .halfUp) :
    waddIncrement p operand =
      (2 * (operand * p.weight.toInt) + 2 ^ p.shift.toNat) / (2 * 2 ^ p.shift.toNat) := by
  simp only [waddIncrement, h]
  generalize operand * p.weight.toInt = P
  cases p.shift.toNat with
  | zero => simp only [if_pos, pow_zero]; omega
  | succ m =>
    have hsum : 2 * P + 2 ^ (m + 1) = 2 * (P + 2 ^ m) := by ring
    rw [if_neg m.succ_ne_zero, Nat.add_sub_cancel, hsum, Int.mul_ediv_mul_of_pos _ _ (by decide)]

/-- Halves to even: at most half of 2^SHIFT from the product, and even at just half. -/
theorem waddIncrement_halfEven (h : p.round = .halfEven) :
    let P := operand * p.weight.toInt
    let d : Int := 2 ^ p.shift.toNat
    let q := waddIncrement p operand
    2 * |P - q * d| ≤ d ∧ (2 * |P - q * d| = d → q % 2 = 0) := by
  simp only [waddIncrement, h]
  generalize operand * p.weight.toInt = P
  have hd : (0 : Int) < 2 ^ p.shift.toNat := by positivity
  generalize (2 : Int) ^ p.shift.toNat = d at hd ⊢
  have hlo := Int.emod_nonneg P hd.ne'
  have hhi := Int.emod_lt_of_pos P hd
  have hrem := Int.emod_add_ediv_mul P d
  have hdown : |P - P / d * d| = P % d := by rw [abs_of_nonneg] <;> omega
  have hup : |P - (P / d + 1) * d| = d - P % d := by rw [add_mul, one_mul, abs_of_neg] <;> omega
  split_ifs
  · rw [hdown]; omega
  · rw [hup]; omega
  · rw [hdown]; omega
  · rw [hup]; omega

/-- A shift by 0 leaves the product as it is under every ROUND. -/
theorem waddIncrement_of_shift_zero (h : p.shift.toNat = 0) :
    waddIncrement p operand = operand * p.weight.toInt := by
  cases hr : p.round <;> simp [waddIncrement, hr, h]

end

/-! ### The statements -/

/-- Settles O5: the exact result is what `exactSum` answers, and `rangeValue` handles it. -/
theorem sumsAreHandledByPolicy : Obligations.SumsAreHandledByPolicy := by
  intro op r exact hop
  have hsum : exactSum op r.value.toInt = some exact := by
    obtain ⟨hk, rfl⟩ | ⟨hk, rfl⟩ | ⟨hk, rfl⟩ := hop <;> simp only [exactSum, hk]
  obtain ⟨hvalue, hovf⟩ := evaluate_sum hsum
  refine ⟨fun hin => ?_, fun hout => ?_⟩
  · rw [← valueInRange_iff] at hin
    exact ⟨hvalue.trans (rangeValue_of_valueInRange _ hin), by simp [hovf, hin]⟩
  · rw [← valueInRange_eq_false_iff] at hout
    refine ⟨by simp [hovf, hout], fun hp => ?_, fun hp => ?_⟩
    · rw [hvalue, hp]; rfl
    · rw [hvalue, hp]; exact clampValue_of_not_valueInRange hout

/-- Settles O6: each ROUND is a floor, of P / 2^SHIFT or of it with a half added, or the even choice at a half. -/
theorem weightedIncrementsAreRounded : Obligations.WeightedIncrementsAreRounded := by
  intro p operand P d q
  have hd : 0 < d := by positivity
  refine ⟨waddIncrement_of_shift_zero, fun h => ?_, fun h => ?_, waddIncrement_halfEven⟩
  · have hq : q = P / d := waddIncrement_trunc h
    exact hq ▸ ⟨Int.ediv_mul_le P hd.ne', Int.lt_ediv_add_one_mul_self P hd⟩
  · have hq : q = (2 * P + d) / (2 * d) := waddIncrement_halfUp h
    have hd2 : 0 < 2 * d := by omega
    rw [hq, mul_assoc, mul_assoc, mul_comm d 2]
    exact ⟨Int.ediv_mul_le _ hd2.ne', Int.lt_ediv_add_one_mul_self _ hd2⟩

/-- Settles O7: the operand acts through `clampValue`, and each kind by its own `comparedValue`. -/
theorem comparisonsLoadPresetAndRearm : Obligations.ComparisonsLoadPresetAndRearm := by
  refine ⟨fun op r hk => ⟨fun hhi => ?_, fun hlo => ?_, fun hin hp => ?_⟩, fun op r => ?_, fun op r => ?_⟩
  · exact evaluate_of_clamped_operand hk ((valueInRange_eq_false_iff _).2 (.inr hhi))
      (by simp only [clampValue_eq]; omega)
  · exact evaluate_of_clamped_operand hk ((valueInRange_eq_false_iff _).2 (.inl hlo))
      (by simp only [clampValue_eq]; omega)
  · obtain ⟨-, -, -, hovf⟩ := evaluate_comparison (op := op) (r := r) (by simpa [hp] using hk)
    rw [hovf, (valueInRange_iff _).2 hin]; exact Bool.or_false _
  · have hvalue (hk : op.kind ∈ [.peak, .valley, .peakMag, .load]) := (evaluate_comparison (r := r) hk).1
    refine ⟨fun h => ?_, fun h => ?_, fun h => ?_, fun h => ?_, fun h => ?_⟩
    · rw [hvalue (by simp [h]), h]; exact comparedValue_peak ..
    · rw [hvalue (by simp [h]), h]; exact comparedValue_valley ..
    · rw [hvalue (by simp [h]), h]; exact comparedValue_peakMag ..
    · rw [hvalue (by simp [h]), h]; rfl
    · obtain ⟨-, harm, hhit, hovf⟩ := evaluate_comparison (r := r) h
      exact ⟨harm, fun hf => by rw [hhit, hf, Bool.or_false], by rw [hovf, not_valueInRange_eq]⟩
  · refine ⟨fun h => ?_, fun h => ?_⟩
    · rw [evaluate_of_preset h]
      exact ⟨rfl, toInt_ofInt_of_valueInRange (valueInRange_clampValue _), rfl, rfl, not_valueInRange_eq _⟩
    · rw [evaluate_of_rearm h]
      exact ⟨rfl, rfl⟩

end Sys2Proof.Machine
end

section
/-! SUPPORT. What directory entries and descriptors hold and what an access is judged by (R28 to R34, R67): the codes
as places of their tables, the malformed entries, the fields of the others, rights, groups and the shape test. -/

namespace Sys2Proof.Machine

/-! ### The codes: each is a place in its table (R27, R30) -/

theorem Rights.decode_eq_getElem? (c : BitVec 2) :
    Rights.decode c = [Rights.noAccess, .readOnly, .full][c.toNat]? := by
  unfold Rights.decode
  match c.toNat with
  | 0 | 1 | 2 | _ + 3 => rfl

theorem WindowKind.decode_eq_getElem? (c : BitVec 3) :
    WindowKind.decode c = [WindowKind.direct, .accumulate, .clampedView, .drain][c.toNat]? := by
  unfold WindowKind.decode
  match c.toNat with
  | 0 | 1 | 2 | 3 | _ + 4 => rfl

theorem Round.decode_eq_getElem? (c : BitVec 2) :
    Round.decode c = [Round.trunc, .halfUp, .halfEven][c.toNat]? := by
  unfold Round.decode
  match c.toNat with
  | 0 | 1 | 2 | _ + 3 => rfl

theorem accumulateOp_eq_getElem? (c : BitVec 4) :
    accumulateOp c = [OpKind.add, .tally, .wadd, .peak, .valley, .peakMag, .load][c.toNat]? := by
  unfold accumulateOp
  match c.toNat with
  | 0 | 1 | 2 | 3 | 4 | 5 | 6 | _ + 7 => rfl

/-- A code of two bits past the third is the fourth. -/
theorem three_le_toNat_iff (c : BitVec 2) : 3 ≤ c.toNat ↔ c = 3 := by bv_omega

theorem Rights.decode_eq_none_iff (c : BitVec 2) : Rights.decode c = none ↔ c = 3 := by
  rw [decode_eq_getElem?, List.getElem?_eq_none_iff]; exact three_le_toNat_iff c

theorem Round.decode_eq_none_iff (c : BitVec 2) : Round.decode c = none ↔ c = 3 := by
  rw [decode_eq_getElem?, List.getElem?_eq_none_iff]; exact three_le_toNat_iff c

theorem WindowKind.decode_eq_none_iff (c : BitVec 3) : WindowKind.decode c = none ↔ 4 ≤ c.toNat := by
  rw [decode_eq_getElem?, List.getElem?_eq_none_iff]; rfl

theorem accumulateOp_eq_none_iff (c : BitVec 4) : accumulateOp c = none ↔ 7 ≤ c.toNat := by
  rw [accumulateOp_eq_getElem?, List.getElem?_eq_none_iff]; rfl

theorem WindowKind.decode_eq_accumulate_iff (c : BitVec 3) : WindowKind.decode c = some .accumulate ↔ c = 1 := by
  have hc : c = 1 ↔ c.toNat = 1 := by bv_omega
  rw [decode_eq_getElem?, hc]
  match c.toNat with
  | 0 | 1 | 2 | 3 | _ + 4 => simp

theorem watchLegal_eq_false_iff (c : BitVec 6) : watchLegal c = false ↔ 56 ≤ c.toNat ∧ c.toNat ≤ 62 := by
  rw [watchLegal, decide_eq_false_iff_not]; omega

/-! ### Addresses in 2 KiB units, and the span (R24, R28, R30) -/

theorem unitAddr_toNat (count : BitVec 21) : (unitAddr count).toNat = count.toNat * 2048 := by
  rw [unitAddr, BitVec.toNat_append]; simp [Nat.shiftLeft_eq]

/-- 2 KiB at a count of units share a byte with the span. -/
theorem overlaps_unitAddr_span_iff (c : LoadedConfig) (count : BitVec 21) :
    overlaps (unitAddr count).toNat 2048 c.spanBase.toNat c.spanLength = true ↔
      count.toNat * 2048 < c.spanBase.toNat + 2 ^ 18 * 2 ^ c.spanSize ∧
        c.spanBase.toNat < count.toNat * 2048 + 2048 := by
  simp [overlaps, unitAddr_toNat, LoadedConfig.spanLength]

/-! ### Directory entries (R28) -/

section

variable {c : LoadedConfig} {f : DirFields}

theorem dirRightsOf_eq_none_iff : dirRightsOf c f = none ↔
    f.userRights = none ∨ overlaps f.tableBase.toNat 2048 c.spanBase.toNat c.spanLength = true := by
  unfold dirRightsOf; split <;> simp_all

theorem userRights_of_dirRightsOf {rights : Rights} (h : dirRightsOf c f = some rights) :
    f.userRights = some rights := by
  unfold dirRightsOf at h; split at h
  · contradiction
  · exact h

end

/-! ### Descriptors (R29, R30) -/

section

variable {c : LoadedConfig} {w : BitVec 128} {d : Descriptor}

/-- The tests of R30 that need the descriptor alone. -/
theorem Descriptor.decode_eq_none_iff : Descriptor.decode w = none ↔
    WindowKind.decode (w.extractLsb' 1 3) = none ∨ Rights.decode (w.extractLsb' 4 2) = none ∨
      (WindowKind.decode (w.extractLsb' 1 3) = some .accumulate ∧ accumulateOp (w.extractLsb' 16 4) = none) ∨
      Round.decode (w.extractLsb' 14 2) = none ∨ watchLegal (w.extractLsb' 80 6) = false := by
  unfold Descriptor.decode
  cases WindowKind.decode (w.extractLsb' 1 3) with
  | none => simp
  | some kind =>
    cases Rights.decode (w.extractLsb' 4 2) with
    | none => simp
    | some rights =>
      cases Round.decode (w.extractLsb' 14 2) with
      | none => simp
      | some round =>
        cases hwatch : watchLegal (w.extractLsb' 80 6) <;> cases kind <;> simp [hwatch]

/-- What a descriptor that decodes holds: the codes as their tables decode them, the other fields the bits of 11.4. -/
theorem Descriptor.fields_of_decode (h : Descriptor.decode w = some d) :
    WindowKind.decode (w.extractLsb' 1 3) = some d.kind ∧ Rights.decode (w.extractLsb' 4 2) = some d.userRights ∧
      d.strict = w.getLsbD 6 ∧ d.order = (if w.getLsbD 7 then .big else .little) ∧ d.groups = w.extractLsb' 8 4 ∧
      d.params.signed = w.getLsbD 12 ∧ d.params.policy = (if w.getLsbD 13 then .clamp else .wrap) ∧
      Round.decode (w.extractLsb' 14 2) = some d.params.round ∧
      d.params.op = w.extractLsb' 16 4 ∧ d.params.shift = w.extractLsb' 24 5 ∧
      d.backing = unitAddr (w.extractLsb' 32 21) ∧
      d.params.weight = w.extractLsb' 64 16 ∧ d.params.watch = w.extractLsb' 80 6 := by
  unfold Descriptor.decode at h
  split at h
  case h_1 hkind hrights hround =>
    obtain ⟨-, hd⟩ := Option.ite_none_right_eq_some.1 h
    cases hd
    exact ⟨hkind, hrights, rfl, rfl, rfl, rfl, rfl, hround, rfl, rfl, rfl, rfl, rfl⟩
  case h_2 => contradiction

theorem descriptorOf_of_absent (h : w.getLsbD 0 = false) : descriptorOf c w = .error .winAbsent := by
  simp only [descriptorOf, descPresent, h, Bool.not_false, if_true]

/-- A present descriptor is malformed if it does not decode, or if its backing overlaps the span. -/
theorem descriptorOf_eq_malformed_iff (h : w.getLsbD 0 = true) : descriptorOf c w = .error .malformed ↔
    Descriptor.decode w = none ∨
      overlaps (unitAddr (w.extractLsb' 32 21)).toNat 2048 c.spanBase.toNat c.spanLength = true := by
  simp only [descriptorOf, descPresent, h, Bool.not_true]
  cases hd : Descriptor.decode w with
  | none => simp
  | some d =>
    obtain ⟨-, -, -, -, -, -, -, -, -, -, hbacking, -⟩ := Descriptor.fields_of_decode hd
    simp [← hbacking]

theorem decode_of_descriptorOf (h : descriptorOf c w = .ok d) : Descriptor.decode w = some d := by
  unfold descriptorOf at h
  split at h
  · contradiction
  · split at h
    · contradiction
    · split at h
      · contradiction
      · cases h; assumption

end

/-! ### Rights and groups (R31 to R34) -/

theorem Rights.meet_eq_or (a b : Rights) : a.meet b = a ∨ a.meet b = b := ite_eq_or_eq ..

theorem Rights.rank_meet (a b : Rights) : (a.meet b).rank = min a.rank b.rank := by
  unfold Rights.meet; split <;> omega

theorem Rights.meet_eq_full_iff (a b : Rights) : a.meet b = .full ↔ a = .full ∧ b = .full := by
  cases a <;> cases b <;> decide

theorem supervisorRights_strict (user : Rights) :
    supervisorRights true user = if user = .full then .full else .readOnly := by
  cases user <;> rfl

theorem neededRights_rank (kind : AccessKind) (window : WindowKind) :
    (neededRights kind window).rank = if kind = .write ∨ window = .drain then 2 else 1 := by
  cases kind <;> cases window <;> rfl

theorem groupOf_eq (groupMap : BitVec 32) (m : Fin 16) :
    groupOf groupMap m = ((groupMap >>> (2 * m.val)) &&& 3).toNat := by
  have hmask : groupMap.toNat >>> (2 * m.val) &&& 3 = groupMap.toNat >>> (2 * m.val) % 2 ^ 2 :=
    Nat.and_two_pow_sub_one_eq_mod _ 2
  simp [groupOf, hmask]

/-! ### The shape test (R67) -/

section

variable (window : WindowKind) (kind : AccessKind) (offset : Nat)

theorem shapeFault_burst (beats : Nat) : shapeFault window kind (.burst beats) offset =
    if 2048 < offset + 8 * beats then some .boundary else if window = .direct then none else some .shape := by
  by_cases hedge : 2048 < offset + 8 * beats
  · simp [shapeFault, shapeIsBurst, Shape.bytes, hedge]
  · cases window <;> simp [shapeFault, shapeAdmitted, Shape.bytes, hedge]

/-- A single access fails by SHAPE alone. -/
theorem shapeFault_single (size : Size) : shapeFault window kind (.single size) offset =
    if shapeAdmitted window kind (.single size) (offset % 8) then none else some .shape := rfl

end

/-! ### The judgement (R39, tests 5 to 7) -/

section

variable {c : LoadedConfig} {second : Bool} {dirRights : Rights} {d : Descriptor} {r : Request}

theorem judge_of_low_rights (h : (rightsFor r.priv dirRights d).rank < (neededRights r.kind d.kind).rank) :
    judge c second dirRights d r =
      some ⟨.rights, c.windowOf r.addr, if second then some (d.backingAddr (c.windowOffset r.addr)) else none⟩ :=
  if_pos h

theorem judge_of_other_group (h : ¬ (rightsFor r.priv dirRights d).rank < (neededRights r.kind d.kind).rank)
    (hg : ¬ d.groups.getLsbD (groupOf c.groupMap r.master) = true) :
    judge c second dirRights d r = some ⟨.group, c.windowOf r.addr, none⟩ := by
  simp only [judge, if_neg h, hg, Bool.not_false, if_true]

theorem judge_of_rights_and_group (h : ¬ (rightsFor r.priv dirRights d).rank < (neededRights r.kind d.kind).rank)
    (hg : d.groups.getLsbD (groupOf c.groupMap r.master) = true) :
    judge c second dirRights d r = (shapeFault d.kind r.kind r.shape (c.windowOffset r.addr)).map fun cause =>
      ⟨cause, c.windowOf r.addr, some (d.backingAddr (c.windowOffset r.addr))⟩ := by
  simp only [judge, if_neg h, hg, Bool.not_true]
  cases shapeFault d.kind r.kind r.shape (c.windowOffset r.addr) <;> rfl

end

/-! ### The statements -/

/-- Settles O9: a code is malformed where its table has no such place; what decodes holds the table's bits. -/
theorem tablesAndRightsAreJudged : Obligations.TablesAndRightsAreJudged := by
  refine ⟨⟨fun c w => ?_, fun c w hp => ?_, fun c w => descriptorOf_of_absent⟩,
    ⟨fun c w rights h => ?_, fun c w d h => ?_, accumulateOp_eq_getElem?⟩, fun dirRights d => ?_⟩
  · exact dirRightsOf_eq_none_iff.trans (or_congr (Rights.decode_eq_none_iff _) (overlaps_unitAddr_span_iff c _))
  · rw [descriptorOf_eq_malformed_iff hp, Descriptor.decode_eq_none_iff, WindowKind.decode_eq_none_iff,
      Rights.decode_eq_none_iff, WindowKind.decode_eq_accumulate_iff, accumulateOp_eq_none_iff,
      Round.decode_eq_none_iff, watchLegal_eq_false_iff, overlaps_unitAddr_span_iff]
    tauto
  · rw [← Rights.decode_eq_getElem?]; exact userRights_of_dirRightsOf h
  · obtain ⟨hkind, hrights, hstrict, horder, hgroups, hsigned, hpolicy, hround, hop, hshift, hbacking, hweight,
      hwatch⟩ := Descriptor.fields_of_decode (decode_of_descriptorOf h)
    rw [← WindowKind.decode_eq_getElem?, ← Rights.decode_eq_getElem?, ← Round.decode_eq_getElem?]
    refine ⟨hkind, hrights, hstrict, ?_, hgroups, hsigned, ?_, hround, hop, hshift, ?_, hweight, hwatch⟩
    · rw [horder]; cases w.getLsbD 7 <;> simp
    · rw [hpolicy]; cases w.getLsbD 13 <;> simp
    · rw [hbacking, unitAddr_toNat, Nat.mul_comm]
  · refine ⟨Rights.rank_meet _ _, Rights.meet_eq_or _ _, fun hs => ?_, fun hs => ?_⟩
    · simp [rightsFor, supervisorRights, hs]
    · simp [rightsFor, supervisorRights_strict, hs, Rights.meet_eq_full_iff]

/-- Settles O10: the judgement by its three outcomes, and the shape test by the rows of its table. -/
theorem theFirstFailedTestGivesTheCause : Obligations.TheFirstFailedTestGivesTheCause := by
  refine ⟨fun c second dirRights d r => ?_, fun window kind shape offset _ => ⟨?_, ?_⟩⟩
  · simp only [← neededRights_rank, ← groupOf_eq]
    exact ⟨fun h => judge_of_low_rights (not_le.1 h), fun h hg => judge_of_other_group (not_lt.2 h) hg,
      fun h hg => judge_of_rights_and_group (not_lt.2 h) hg⟩
  · rintro beats rfl
    exact shapeFault_burst window kind offset beats
  · rintro size rfl -
    rw [shapeFault_single]
    cases window <;> cases kind <;> simp [shapeAdmitted]

end Sys2Proof.Machine
end

section
/-! SUPPORT. The consumer index and the level of ATTN (R137, R142): what a CONSUMED value does in range and out of it,
ANY_ERROR as a set flag among the eight, and the statements. -/

namespace Sys2Proof.Machine

/-! ### The consumer index (R137) -/

section

variable {s : State} {index : BitVec 16}

theorem RingWriter.consumedInRange_iff {r : RingWriter} :
    r.consumedInRange index = true ↔ (index - r.consumed).toNat ≤ (r.produced - r.consumed).toNat :=
  decide_eq_true_iff

theorem State.consume_of_inRange (h : s.ring.consumedInRange index = true) :
    s.consume index = s.withRing { s.ring with consumed := index } :=
  if_pos h

theorem State.consume_of_inactive (h : ¬ s.ring.consumedInRange index = true) (hs : s.ring.state = .inactive) :
    s.consume index = s := by
  rw [State.consume, if_neg h, hs]

theorem State.consume_of_not_inactive (h : ¬ s.ring.consumedInRange index = true) (hs : s.ring.state ≠ .inactive) :
    s.consume index = s.raiseIndexError := by
  rw [State.consume, if_neg h]
  cases hring : s.ring.state with
  | inactive => exact absurd hring hs
  | active | broken => rfl

/-- The row of a CONSUMED word takes the word and hands its index to the writer. -/
theorem exec_consumedWrite_of_takesWord (h : s.takesWord (.consumed index)) :
    exec (.consumedWrite index) s = .next (s.wordTaken.consume index) :=
  (exec_word (.consumed index) s).trans (congrArg _ (State.onWord_taken h))

end

/-! ### ATTN (R142, R161) -/

theorem StickyFlags.anyError_iff_mem (f : StickyFlags) : f.anyError = true ↔
    true ∈ [f.overrun, f.ringBroken, f.indexError, f.dataLost, f.dropped, f.configError, f.mirrorFault, f.fatal] := by
  simp [StickyFlags.anyError, or_assoc]

theorem State.attn_iff (s : State) : s.attn = true ↔
    s.running ∧ (s.ring.attnEnable = true ∧ s.ring.produced ≠ s.ring.consumed ∨ s.cm.flags.anyError = true) := by
  simp [State.attn]

/-! ### The statements -/

/-- Settles O30: in range the index is taken; out of range it is ignored, and reported unless the ring is INACTIVE. -/
theorem consumedIsJudgedAgainstTheRing : Obligations.ConsumedIsJudgedAgainstTheRing := by
  intro s index hword
  rw [exec_consumedWrite_of_takesWord hword]
  have hrange : s.wordTaken.ring.consumedInRange index = true ↔ _ := RingWriter.consumedInRange_iff
  refine ⟨fun hin => ?taken, fun hout hinactive => ?ignored, fun hout hstate => ?reported⟩
  case taken => exact congrArg _ (State.consume_of_inRange (hrange.2 hin))
  case ignored => exact congrArg _ (State.consume_of_inactive (mt hrange.1 hout) hinactive)
  case reported =>
    have hraised := State.consume_of_not_inactive (mt hrange.1 hout) hstate
    exact congrArg _ (hraised.trans (State.raiseIndexError_eq s.wordTaken))

/-- Settles O33: the level of ATTN by its two terms, the second being ANY_ERROR. -/
theorem attentionFollowsItsTerms : Obligations.AttentionFollowsItsTerms := fun s => by
  rw [State.attn_iff, StickyFlags.anyError_iff_mem]

end Sys2Proof.Machine
end

section
/-! SUPPORT. The validation of a configuration (R154): the first failure of a list of checks, the two parts of the
validation as the lists of their checks, in the plain arithmetic of their conditions, and the statement. -/

namespace Sys2Proof.Machine

/-! ### The first failure of a list of checks -/

/-- Checks made in order, each a code with whether it fails: the code of the first that fails. -/
def firstFailure (checks : List (ConfigCode × Bool)) : Option ConfigCode := (checks.find? (·.2)).map (·.1)

@[simp] theorem firstFailure_nil : firstFailure [] = none := rfl

/-- A check that fails gives its code, and the later ones are not made. -/
theorem firstFailure_cons (code : ConfigCode) (fails : Bool) (checks : List (ConfigCode × Bool)) :
    firstFailure ((code, fails) :: checks) = if fails then some code else firstFailure checks := by
  cases fails <;> rfl

/-- Checks that follow others count where none of the others fails. -/
theorem firstFailure_append (checks later : List (ConfigCode × Bool)) :
    firstFailure (checks ++ later) = (firstFailure checks).or (firstFailure later) := by
  simp only [firstFailure, List.find?_append, Option.map_or]

/-! ### The conditions of the checks -/

/-- Two byte ranges share a byte: each starts before the end of the other. -/
def shareByte (a m b n : Nat) : Bool := decide (a < b + n ∧ b < a + m)

theorem overlaps_eq_shareByte {a m b n : Nat} (hm : 0 < m) (hn : 0 < n) : overlaps a m b n = shareByte a m b n := by
  simp only [overlaps, shareByte, hm, hn, true_and]

theorem not_alignedTo_eq (a n : Nat) : (!alignedTo a n) = decide (a % n ≠ 0) := by
  rw [alignedTo, decide_not]; rfl

/-- The length of a span, a directory or a ring: a unit doubled by a size code. -/
theorem doubled_pos {u : Nat} (hu : 0 < u) (k : Nat) : 0 < u * 2 ^ k := Nat.mul_pos hu (Nat.two_pow_pos k)

/-! ### The two parts of the validation as lists of checks -/

/-- Checks 2 to 6 of R154. -/
def spanChecks (cb : Addr) (a : ConfigArea) : List (ConfigCode × Bool) :=
  let span := 2 ^ 18 * 2 ^ a.spanSize
  [(.spanSizeBad, decide (9 < a.spanSize)),
    (.spanAlign, decide (a.spanBase.toNat % span ≠ 0)),
    (.dirAlign, decide (a.dirBase.toNat % 4096 ≠ 0)),
    (.dirOverlap, shareByte a.dirBase.toNat (8 * 2 ^ a.spanSize) a.spanBase.toNat span),
    (.cbOverlap, shareByte cb.toNat 256 a.spanBase.toNat span)]

/-- Checks 7 to 9 of R154, on the ring of an area against a span and directory. -/
def ringChecks (cb : Addr) (c : LoadedConfig) (a : ConfigArea) : List (ConfigCode × Bool) :=
  let ring := 32 * 2 ^ a.ringSize
  [(.ringSizeBad, decide (a.ringSize < 4 ∨ 12 < a.ringSize)),
    (.ringAlign, decide (a.ringBase.toNat % 32 ≠ 0 ∨ 2 ^ 32 < a.ringBase.toNat + ring)),
    (.ringOverlap, shareByte a.ringBase.toNat ring c.spanBase.toNat (2 ^ 18 * 2 ^ c.spanSize)
      || shareByte a.ringBase.toNat ring c.dirBase.toNat (8 * 2 ^ c.spanSize)
      || shareByte a.ringBase.toNat ring cb.toNat 256)]

theorem checkSpan_eq (cb : Addr) (a : ConfigArea) : checkSpan cb a = firstFailure (spanChecks cb a) := by
  have hspan : 0 < 2 ^ 18 * 2 ^ a.spanSize := doubled_pos (by decide) _
  have hdir := overlaps_eq_shareByte (a := a.dirBase.toNat) (b := a.spanBase.toNat)
    (doubled_pos (by decide : 0 < 8) a.spanSize) hspan
  have hcb := overlaps_eq_shareByte (a := cb.toNat) (m := 256) (b := a.spanBase.toNat) (by decide) hspan
  simp only [checkSpan, spanChecks, firstFailure_cons, firstFailure_nil, not_alignedTo_eq, hdir, hcb,
    decide_eq_true_eq]

theorem checkRing_eq (cb : Addr) (c : LoadedConfig) (a : ConfigArea) :
    checkRing cb c a.ringBase a.ringSize = firstFailure (ringChecks cb c a) := by
  have hring {b n : Nat} := overlaps_eq_shareByte (a := a.ringBase.toNat) (b := b) (n := n)
    (doubled_pos (by decide : 0 < 32) a.ringSize)
  have hspan := hring (b := c.spanBase.toNat) (doubled_pos (by decide : 0 < 2 ^ 18) c.spanSize)
  have hdir := hring (b := c.dirBase.toNat) (doubled_pos (by decide : 0 < 8) c.spanSize)
  have hcb := hring (b := cb.toNat) (by decide : 0 < 256)
  simp only [checkRing, ringChecks, LoadedConfig.spanLength, firstFailure_cons, firstFailure_nil, not_alignedTo_eq,
    hspan, hdir, hcb, Bool.or_eq_true, decide_eq_true_eq]

/-! ### The validation of the two commands -/

/-- ACTIVATE makes check 1, those on the span, those on the ring against the same area, and check 10. -/
theorem validateActivate_eq (cb : Addr) (st : Status) (a : ConfigArea) :
    validateActivate cb st a = firstFailure ((.configReadError, decide (st = .error)) ::
      (spanChecks cb a ++ ringChecks cb a.loaded a ++ [(.ageBad, decide (1023 < a.ageInterval))])) := by
  rw [firstFailure_cons, firstFailure_append, firstFailure_append, ← checkSpan_eq, ← checkRing_eq, firstFailure_cons]
  cases st with
  | error => rfl
  | okay =>
    rw [validateActivate]
    cases checkSpan cb a with
    | some code => rfl
    | none => cases checkRing cb a.loaded a.ringBase a.ringSize <;> simp

/-- RING_RESTART makes check 1 and those on the ring against the loaded configuration. -/
theorem validateRestart_eq (cb : Addr) (c : LoadedConfig) (st : Status) (a : ConfigArea) :
    validateRestart cb c st a =
      firstFailure ((.configReadError, decide (st = .error)) :: ringChecks cb c a) := by
  rw [firstFailure_cons, ← checkRing_eq]
  cases st <;> rfl

/-! ### The statement -/

/-- Settles O40: each validation is the first failure of the list of its checks. -/
theorem validationGivesTheFirstFailure : Obligations.ValidationGivesTheFirstFailure := fun cb c st a =>
  ⟨validateActivate_eq cb st a, validateRestart_eq cb c st a⟩

end Sys2Proof.Machine
end

section
/-! SUPPORT. What a command can bring about: the elementary changes of the state, each with what holds when it is made.
Every command is a run of them (`exec_reaches`), so a law that each of them keeps is kept by every step. -/

namespace Sys2Proof.Machine

/-! ### What a command may bring about -/

/-- What only some commands bring about: a request is taken, the slots of the Downstream Port change, and the mode
changes (R116, R123, R147). -/
inductive Event
  | takeRequest | port | beginDraining | beginDrain | halt | activate | release | reset
deriving DecidableEq

/-- The events of a command; those of the recognised words come first (log 3). -/
def eventsOf : Instr → List Event
  | .requestTaken => [.takeRequest]
  | .downstreamResponse _ _ _ | .responseTimerExpiry _ => [.port, .halt, .activate]
  | .arbiterGrant | .stalePeriodExpiry _ | .rstnAssert => [.port]
  | .drainBegin => [.beginDrain]
  | .ringReleased => [.release]
  | .responseSent | .rstnRelease _ _ => [.reset]
  | _ => []

/-! ### Lines and caches -/

/-- A line goes on as another: it does not come into use, keeps its counter while it is in use, and keeps the laws of
its pending list. -/
structure Line.Follows (l k : Line) : Prop where
  counter : k.inUse → l.inUse ∧ k.backing = l.backing
  pending : (l.pending ≠ [] → l.state = .filling) → k.pending ≠ [] → k.state = .filling
  room : l.pending.length ≤ 8 → k.pending.length ≤ 8

/-- The use order lists each line in use once (R83). -/
def AccCache.OrderLaw (c : AccCache) : Prop := c.order.Nodup ∧ ∀ i, i ∈ c.order ↔ (c.line i).inUse

/-- A cache goes on as another, line by line, and keeps the law of the use order. -/
structure AccCache.Follows (c d : AccCache) : Prop where
  line : ∀ i, (c.line i).Follows (d.line i)
  order : c.OrderLaw → d.OrderLaw

/-- A Control Monitor goes on as another: the mode, the fatal cause with FATAL and the way to BYPASS are kept, a hold
comes into force only while the path is free, and the ACK list keeps its size. -/
structure ControlMonitor.Follows (pathFree : Prop) (c d : ControlMonitor) : Prop where
  mode : d.mode = c.mode
  fatalCause : d.fatalCause = c.fatalCause
  fatal : d.flags.fatal = c.flags.fatal
  leaving : d.leaving = c.leaving
  hold : d.hold = none ∨ d.hold = c.hold ∨ pathFree
  acks : c.mirror.acks.length ≤ 4 → d.mirror.acks.length ≤ 4

/-! ### The Request Path -/

/-- The path may go on holding a request: it holds one, or it has just taken one with no hold in force (R116, R117). -/
def State.mayKeep (E : List Event) (s : State) : Prop :=
  s.path ≠ none ∨ .takeRequest ∈ E ∧ s.cm.hold = none

/-- A request may be on its way to the Accumulator Cache: just taken in ACTIVE, coming from its walk in ACTIVE or
DRAINING, or on its way already. -/
def State.mayHand (E : List Event) (s : State) : Prop :=
  .takeRequest ∈ E ∧ s.cm.mode = .active ∨
  (s.cm.mode = .active ∨ s.cm.mode = .draining) ∧ (∃ h ∈ s.path, h.isWalking = true) ∨
  ∃ h ∈ s.path, h.handing = true

/-- The change to HALTED before the request held, the lines and the request in progress are dealt with (R148). -/
def State.modeHalted (s : State) : State :=
  let s := (((s.setMode .halted .writebackError).setFatal true).withWindows []).dropDrainStart
  s.withCm { s.cm with leaving := .stay }

/-- One elementary change. -/
inductive State.Change (E : List Event) (s : State) : State → Prop
  | upstream (b : UpstreamPort) (hintake : s.up.intake.length ≤ 16 → b.intake.length ≤ 16)
      (hreads : s.up.reads.length ≤ 16 → b.reads.length ≤ 16) : Change E s (s.withUp b)
  | finish : Change E s (s.withPath none)
  | keep (h : Held) (hkeep : s.mayKeep E) (hhand : h.handing = true ∨ h.isWalking = true → s.mayHand E) :
      Change E s (s.withPath (some h))
  | walker (w : Walker) : Change E s (s.withWalker w)
  | forget (es : List WindowEntry) (h : es.Sublist s.windows) : Change E s (s.withWindows es)
  | insert (e : WindowEntry) (h : s.windows ≠ [] ∨ s.mayHand E) :
      Change E s (s.withWindows (insertWindow e s.windows))
  | cache (c : AccCache) (h : s.acc.Follows c) : Change E s (s.withAcc c)
  | allocate (i : Fin 64) (backing : Addr) (pending : List PendingOp) (cause : Origin) (hhand : s.mayHand E)
      (hlen : pending.length ≤ 8) (hnew : ∀ j, (s.line j).inUse → (s.line j).backing ≠ backing) :
      Change E s (s.setUpLine i backing pending cause)
  | port (d : DownPort) (h : .port ∈ E ∨ d.slots = s.down.slots ∧ d.issueOrder = s.down.issueOrder) :
      Change E s (s.withDown d)
  | ring (r : RingWriter) (hlaw : RingLaw s.ring → RingLaw r) (hlen : s.ring.queue.length ≤ 8 → r.queue.length ≤ 8) :
      Change E s (s.withRing r)
  | monitor (c : ControlMonitor) (h : s.cm.Follows (s.path = none) c) : Change E s (s.withCm c)
  | beginDraining (hE : .beginDraining ∈ E) (hmode : s.cm.mode = .active) :
      Change E s (let u := s.setMode .draining .noCause; u.withCm { u.cm with leaving := .starting })
  | activate (hE : .activate ∈ E) (hmode : s.cm.mode = .bypass) (hhold : s.cm.hold.isSome = true) :
      Change E s (s.setMode .active .noCause)
  | halt (hE : .halt ∈ E) (hmode : s.cm.mode = .active ∨ s.cm.mode = .draining) (hline : ∃ i, (s.line i).inUse)
      (hpath : ∀ h ∈ s.path, h.handing = false) : Change E s s.modeHalted
  | beginDrain (hE : .beginDrain ∈ E) (hhold : s.cm.hold.isSome = true) (hleaving : s.cm.leaving = .starting)
      (hwindows : s.windows = []) :
      Change E s (s.withCm { s.cm with leaving := .draining })
  | beginDiscard (hmode : s.cm.mode = .halted) : Change E s (s.withCm { s.cm with leaving := .discarding })
  | awaitRelease (hleaving : s.cm.leaving = .draining ∨ s.cm.leaving = .discarding)
      (hfree : ∀ i, (s.line i).state = .free) : Change E s (s.withCm { s.cm with leaving := .releasing })
  | release (hE : .release ∈ E) (hleaving : s.cm.leaving = .releasing) :
      Change E s (let u := (s.setMode .bypass .noCause).setFatal false; u.withCm { u.cm with leaving := .stay })
  | link (l : Link) (h : s.link.buffer.length ≤ 8 → l.buffer.length ≤ 8) : Change E s (s.withLink l)
  | pins (p : Pins) : Change E s (s.withPins p)
  | tick (n : Nat) : Change E s (s.withTick n)
  | softRestart (hE : .reset ∈ E) : Change E s s.softRestart
  | releaseRstn (hE : .reset ∈ E) (cbsel : BitVec 3) (mlrate : BitVec 2) : Change E s (s.releaseRstn cbsel mlrate)

/-- A run of elementary changes. -/
abbrev State.Reaches (E : List Event) : State → State → Prop := Relation.ReflTransGen (State.Change E)

variable {E : List Event} {s t : State}

/-- Two runs, the last of them given first. -/
theorem State.Reaches.after {u : State} (h : t.Reaches E u) (h' : s.Reaches E t) : s.Reaches E u := h'.trans h

theorem State.Reaches.keeps {P : State → Prop} (hstep : ∀ u v, State.Change E u v → P u → P v)
    (h : s.Reaches E t) (hs : P s) : P t := by
  induction h with
  | refl => exact hs
  | tail _ hc ih => exact hstep _ _ hc ih

end Sys2Proof.Machine
end

section
/-! SUPPORT. The elementary changes that the shared operations are made of. -/

namespace Sys2Proof.Machine

/-! ### Lines that follow -/

theorem Line.Follows.refl (l : Line) : l.Follows l := ⟨fun h => ⟨h, rfl⟩, id, id⟩

theorem Line.follows_empty (l : Line) : l.Follows .empty :=
  ⟨fun h => absurd rfl h, fun _ h => absurd rfl h, fun _ => Nat.zero_le _⟩

/-- A line in use that is not FILLING, before and after, keeps its laws with its counter and pending list. -/
theorem Line.follows_of_kept {l k : Line} (hl : l.state ≠ .free) (hf : l.state ≠ .filling) (hb : k.backing = l.backing)
    (hp : k.pending = l.pending) : l.Follows k where
  counter _ := ⟨hl, hb⟩
  pending h hk := absurd (h (hp ▸ hk)) hf
  room h := by rwa [hp]

/-- A line that only loses its pending operations keeps its laws. -/
theorem Line.follows_of_emptied {l k : Line} (hl : l.state ≠ .free) (hb : k.backing = l.backing) (hp : k.pending = []) :
    l.Follows k where
  counter _ := ⟨hl, hb⟩
  pending _ hk := absurd hp hk
  room _ := by simp [hp]

/-- A line that stays in its state, with its counter and pending list, keeps its laws. -/
theorem Line.follows_of_state {l k : Line} (hs : k.state = l.state) (hb : k.backing = l.backing)
    (hp : k.pending = l.pending) : l.Follows k where
  counter h := ⟨by rwa [Line.inUse, ← hs], hb⟩
  pending h hk := hs.trans (h (hp ▸ hk))
  room h := by rwa [hp]

theorem Line.follows_startWrite {l : Line} (h : l.state = .dirty) (evict : Bool) : l.Follows (l.startWrite evict) :=
  follows_of_kept (by simp [h]) (by simp [h]) rfl rfl

theorem Line.follows_written {l : Line} (h : l.state = .writing) (st : LineState) (age : Option Nat) (mark : Bool) :
    l.Follows (l.written st age mark) :=
  follows_of_kept (by simp [h]) (by simp [h]) rfl rfl

theorem Line.filled_inUse (fetched left : Record) (age : Option Nat) (l : Line) :
    (l.filled fetched left age).inUse := by
  unfold Line.filled; split <;> exact nofun

theorem Line.follows_filled {l : Line} (h : l.state = .filling) (fetched left : Record) (age : Option Nat) :
    l.Follows (l.filled fetched left age) :=
  follows_of_emptied (by simp [h]) (l.filled_spec fetched left age).2.2.1 (l.filled_spec fetched left age).2.1

theorem Line.replaceRecord_kept (r : Record) (age : Option Nat) (l : Line) :
    (l.replaceRecord r age).backing = l.backing ∧ (l.replaceRecord r age).pending = l.pending ∧
    ((l.replaceRecord r age).inUse ↔ l.inUse) := by
  unfold Line.replaceRecord Line.inUse; cases h : l.state <;> simp

theorem Line.follows_replaceRecord {l : Line} (hf : l.state ≠ .filling) (r : Record) (age : Option Nat) :
    l.Follows (l.replaceRecord r age) := by
  obtain ⟨hb, hp, hu⟩ := l.replaceRecord_kept r age
  exact ⟨fun h => ⟨hu.1 h, hb⟩, fun h hk => absurd (h (hp ▸ hk)) hf, fun h => by rwa [hp]⟩

theorem Line.follows_freeze (w : Bool) (l : Line) : l.Follows (l.freeze w) ∧ ((l.freeze w).inUse ↔ l.inUse) := by
  unfold Line.freeze
  split
  · rename_i h
    have hw : l.state = .writing := by simp_all
    exact ⟨follows_of_kept (by simp [hw]) (by simp [hw]) rfl rfl, by simp [hw]⟩
  · exact ⟨follows_of_state rfl rfl rfl, Iff.rfl⟩

theorem Line.follows_markForFlush (l : Line) : l.Follows l.markForFlush ∧ (l.markForFlush.inUse ↔ l.inUse) := by
  unfold Line.markForFlush
  split <;> exact ⟨follows_of_state rfl rfl rfl, Iff.rfl⟩

theorem Line.follows_beginDrain (l : Line) : l.Follows l.beginDrain := by
  unfold Line.beginDrain
  split
  · exact follows_empty l
  all_goals exact follows_of_state rfl rfl rfl

/-! ### Caches that follow -/

/-- A cache whose lines follow, with the same lines in use and the same use order, follows. -/
theorem AccCache.follows_of_lines {c d : AccCache} (hl : ∀ i, (c.line i).Follows (d.line i))
    (hu : ∀ i, (c.line i).inUse → (d.line i).inUse) (ho : d.order = c.order) : c.Follows d where
  line := hl
  order h := ⟨ho ▸ h.1, fun i => ho ▸ (h.2 i).trans ⟨hu i, fun hd => ((hl i).counter hd).1⟩⟩

/-- A cache whose lines follow follows if its use order loses just the lines that are no longer in use. -/
theorem AccCache.follows_of_filter {c d : AccCache} (p : Fin 64 → Bool) (hl : ∀ i, (c.line i).Follows (d.line i))
    (hp : ∀ i, (c.line i).inUse → (p i = true ↔ (d.line i).inUse)) (ho : d.order = c.order.filter p) : c.Follows d where
  line := hl
  order h := by
    refine ⟨ho ▸ h.1.filter p, fun i => ?_⟩
    rw [ho, List.mem_filter, h.2 i]
    exact ⟨fun ⟨hu, hi⟩ => (hp i hu).1 hi, fun hd => ⟨((hl i).counter hd).1, (hp i ((hl i).counter hd).1).2 hd⟩⟩

theorem AccCache.follows_touch {c : AccCache} {i : Fin 64} (h : (c.line i).inUse) : c.Follows (c.touch i) where
  line j := .refl _
  order := fun ⟨hn, hm⟩ => by
    refine ⟨?_, fun j => ?_⟩
    · simp only [AccCache.touch]
      exact List.nodup_append.2 ⟨hn.filter _, by simp, by simp⟩
    · simp only [AccCache.touch, AccCache.line] at *
      by_cases hj : j = i <;> simp_all

theorem AccCache.follows_setLine {c : AccCache} {i : Fin 64} {l : Line} (h : (c.line i).Follows l)
    (hu : (c.line i).inUse → l.inUse) : c.Follows (c.setLine i l) :=
  follows_of_lines (fun j => by rw [line_setLine]; split <;> rename_i hj <;> [exact hj ▸ h; exact .refl _])
    (fun j => by rw [line_setLine]; split <;> rename_i hj <;> [exact hj ▸ hu; exact id]) rfl

/-- A line that becomes FREE leaves the use order. -/
theorem AccCache.follows_freeLine (c : AccCache) (i : Fin 64) :
    c.Follows { c.setLine i Line.empty with order := c.order.filter (· ≠ i) } := by
  have hl : ∀ j, ({ c.setLine i Line.empty with order := c.order.filter (· ≠ i) } : AccCache).line j
      = if i = j then Line.empty else c.line j := fun j => line_setLine c i j _
  refine follows_of_filter _ (fun j => ?_) (fun j hj => ?_) rfl
  · rw [hl]; split <;> [exact Line.follows_empty _; exact .refl _]
  · rw [hl]; by_cases h : i = j
    · simp [h, Line.empty]
    · simp [h, Ne.symm h, hj]

/-! ### The Control Monitor that follows -/

/-- The fields that the laws read are the same. -/
theorem ControlMonitor.follows_of_same {p : Prop} {c d : ControlMonitor} (hm : d.mode = c.mode)
    (hc : d.fatalCause = c.fatalCause) (hf : d.flags.fatal = c.flags.fatal) (hl : d.leaving = c.leaving)
    (hh : d.hold = c.hold) (ha : c.mirror.acks.length ≤ 4 → d.mirror.acks.length ≤ 4) : c.Follows p d :=
  ⟨hm, hc, hf, hl, .inr (.inl hh), ha⟩

section

variable {E : List Event} (s : State)

/-! ### The Control Monitor's operations -/

/-- A change of the Control Monitor that the laws do not read. -/
theorem State.withCm_reaches {c : ControlMonitor} (h : s.cm.Follows (s.path = none) c) : s.Reaches E (s.withCm c) :=
  .single (.monitor c h)

theorem State.setFlags_reaches {f : StickyFlags} (h : f.fatal = s.cm.flags.fatal) : s.Reaches E (s.setFlags f) :=
  s.withCm_reaches (ControlMonitor.follows_of_same rfl rfl h rfl rfl id)

theorem State.raiseOverrun_reaches : s.Reaches E s.raiseOverrun := s.setFlags_reaches rfl
theorem State.raiseRingBroken_reaches : s.Reaches E s.raiseRingBroken := s.setFlags_reaches rfl
theorem State.raiseIndexError_reaches : s.Reaches E s.raiseIndexError := s.setFlags_reaches rfl
theorem State.raiseDataLost_reaches : s.Reaches E s.raiseDataLost := s.setFlags_reaches rfl
theorem State.raiseDropped_reaches : s.Reaches E s.raiseDropped := s.setFlags_reaches rfl
theorem State.raiseConfigError_reaches : s.Reaches E s.raiseConfigError := s.setFlags_reaches rfl
theorem State.raiseMirrorFault_reaches : s.Reaches E s.raiseMirrorFault := s.setFlags_reaches rfl

theorem State.setLatch_reaches (l : FaultLatch) : s.Reaches E (s.setLatch l) :=
  s.withCm_reaches (ControlMonitor.follows_of_same rfl rfl rfl rfl rfl id)

theorem State.reportFault_reaches (e : EventRecord) : s.Reaches E (s.reportFault e) := by
  unfold State.reportFault; split <;> exact s.setLatch_reaches _

theorem State.pushAck_reaches (a : Ack) : s.Reaches E (s.pushAck a) := by
  unfold State.pushAck
  split
  · rename_i h
    refine s.withCm_reaches (ControlMonitor.follows_of_same rfl rfl rfl rfl rfl fun _ => ?_)
    simpa [Config.ackDepth] using h
  · exact s.raiseMirrorFault_reaches

theorem State.formAck_reaches (a : Ack) : s.Reaches E (s.formAck a) :=
  .after (pushAck_reaches _ a) (s.withCm_reaches (ControlMonitor.follows_of_same rfl rfl rfl rfl rfl id))

theorem State.endRequest_reaches (o : AckOutcome) (k : Option ConfigCode) : s.Reaches E (s.endRequest o k) := by
  unfold State.endRequest
  split
  · exact .after (formAck_reaches _ _) (s.withCm_reaches (ControlMonitor.follows_of_same rfl rfl rfl rfl rfl id))
  · exact s.withCm_reaches (ControlMonitor.follows_of_same rfl rfl rfl rfl rfl id)
  · exact .refl

theorem State.settleHold_reaches : s.Reaches E s.settleHold := by
  unfold State.settleHold
  split
  · rename_i hp
    exact s.withCm_reaches ⟨rfl, rfl, rfl, rfl, .inr (.inr hp), id⟩
  · exact .refl

theorem State.placeHold_reaches (h : Hold) : s.Reaches E (s.placeHold h) :=
  .after (settleHold_reaches _) (s.withCm_reaches (ControlMonitor.follows_of_same rfl rfl rfl rfl rfl id))

theorem State.releaseHold_reaches : s.Reaches E s.releaseHold :=
  .after (settleHold_reaches _) (s.withCm_reaches ⟨rfl, rfl, rfl, rfl, .inl rfl, id⟩)

theorem State.clearStatus_reaches : s.Reaches E s.clearStatus :=
  .after (setLatch_reaches _ _) (s.setFlags_reaches rfl)

/-! ### Records, answers and the Request Path -/

/-- The law of the ring does not read the queue, the base or the ring's state. -/
theorem RingLaw.of_indices {r r' : RingWriter} (h : RingLaw r) (hsize : r'.size = r.size)
    (hrestart : r'.restart = r.restart) (hproduced : r'.produced = r.produced) (hconsumed : r'.consumed = r.consumed)
    (hphase : r'.phase = r.phase) (hhand : r'.inHand = r.inHand) : RingLaw r' := by
  simpa only [RingLaw, RingWriter.fill, hsize, hrestart, hproduced, hconsumed, hphase, hhand] using h

theorem State.handRecord_reaches (e : EventRecord) : s.Reaches E (s.handRecord e) := by
  have hqueued : s.Reaches E (if s.ring.queue.length < Config.recordDepth
      then s.withRing { s.ring with queue := s.ring.queue ++ [e] } else s.raiseOverrun) := by
    split
    · rename_i h
      refine .single (.ring _ (fun hr => hr.of_indices rfl rfl rfl rfl rfl rfl) fun _ => ?_)
      simpa [Config.recordDepth] using h
    · exact s.raiseOverrun_reaches
  unfold State.handRecord
  split
  · exact .refl
  · exact hqueued
  · exact hqueued

theorem State.handRecords_reaches (es : List EventRecord) : s.Reaches E (s.handRecords es) := by
  unfold State.handRecords
  induction es generalizing s with
  | nil => exact .refl
  | cons e es ih => exact .after (ih _) (s.handRecord_reaches e)

theorem State.answerRead_reaches (id : Nat) (a : Answer) : s.Reaches E (s.answerRead id a) :=
  .single (.upstream _ (fun h => h) fun h => by simpa using h)

theorem State.answerRequest_reaches (r : Request) (a : Answer) : s.Reaches E (s.answerRequest r a) := by
  unfold State.answerRequest; split <;> [exact s.answerRead_reaches _ _; exact .refl]

theorem State.finishPath_reaches : s.Reaches E s.finishPath :=
  .after (settleHold_reaches _) (.single .finish)

theorem State.refuse_reaches (r : Request) : s.Reaches E (s.refuse r) := by
  refine .after (finishPath_reaches _) ?_
  split <;> [exact s.raiseDropped_reaches; exact s.answerRequest_reaches _ _]

theorem State.faultWith_reaches (r : Request) (f : FaultInfo) : s.Reaches E (s.faultWith r f) :=
  .after (finishPath_reaches _) (.after (reportFault_reaches _ _)
    (.after (handRecord_reaches _ _) (s.answerRequest_reaches _ _)))

theorem State.keep_reaches {r : Request} {stage : Stage} (hk : s.mayKeep E)
    (hh : Held.handing ⟨r, stage⟩ = true ∨ Held.isWalking ⟨r, stage⟩ = true → s.mayHand E) :
    s.Reaches E (s.keep r stage) :=
  .single (.keep _ hk hh)

/-- A request held at a stage that is neither on its way to the cache nor walking. -/
theorem State.keep_elsewhere_reaches {r : Request} {stage : Stage} (hk : s.mayKeep E)
    (h : Held.handing ⟨r, stage⟩ = false) (hw : Held.isWalking ⟨r, stage⟩ = false) : s.Reaches E (s.keep r stage) :=
  s.keep_reaches hk (by simp [h, hw])

/-! ### Lines -/

theorem State.withAcc_reaches {c : AccCache} (h : s.acc.Follows c) : s.Reaches E (s.withAcc c) :=
  .single (.cache c h)

theorem State.setLine_reaches {i : Fin 64} {l : Line} (h : (s.line i).Follows l) (hu : (s.line i).inUse → l.inUse) :
    s.Reaches E (s.setLine i l) := s.withAcc_reaches (AccCache.follows_setLine h hu)

theorem State.touch_reaches {i : Fin 64} (h : (s.line i).inUse) : s.Reaches E (s.touch i) :=
  s.withAcc_reaches (AccCache.follows_touch h)

theorem State.freeLine_reaches (i : Fin 64) : s.Reaches E (s.freeLine i) :=
  s.withAcc_reaches (s.acc.follows_freeLine i)

theorem State.startWriteBack_reaches {i : Fin 64} (h : (s.line i).state = .dirty) (evict : Bool) :
    s.Reaches E (s.startWriteBack evict i) := by
  have hf := AccCache.follows_setLine (c := s.acc) (Line.follows_startWrite h evict) fun _ => nofun
  exact s.withAcc_reaches ⟨hf.line, hf.order⟩

@[simp] theorem AccCache.mapLines_order (c : AccCache) (f : Fin 64 → Line → Line) : (c.mapLines f).order = c.order := by
  simp only [AccCache.mapLines]

/-- Every line changed by a function that its laws follow, with the use order kept. -/
theorem AccCache.follows_mapLines {c d : AccCache} (f : Fin 64 → Line → Line) (hl : d.lines = (c.mapLines f).lines)
    (h : ∀ i, (c.line i).Follows (f i (c.line i)) ∧ ((c.line i).inUse → (f i (c.line i)).inUse))
    (ho : d.order = (c.mapLines f).order) : c.Follows d := by
  have hd (i : Fin 64) : d.line i = f i (c.line i) := (AccCache.line_congr hl i).trans (c.line_mapLines f i)
  exact follows_of_lines (fun i => hd i ▸ (h i).1) (fun i => hd i ▸ (h i).2)
    (ho.trans (c.mapLines_order f))

theorem State.startAllDirty_reaches (evict : Bool) : s.Reaches E (s.startAllDirty evict) := by
  unfold State.startAllDirty
  refine .tail (s.withAcc_reaches ?_) (.tick _)
  refine AccCache.follows_mapLines (fun _ l => if l.state = .dirty then l.startWrite evict else l) rfl (fun i => ?_)
    (by simp only)
  split
  · rename_i h; exact ⟨Line.follows_startWrite h _, fun _ => nofun⟩
  · exact ⟨.refl _, id⟩

theorem State.flushDirty_reaches (i : Fin 64) : s.Reaches E (s.flushDirty i) := by
  unfold State.flushDirty
  split
  · rename_i h; exact s.startWriteBack_reaches h.1 _
  · exact .refl

theorem State.drainLine_reaches (i : Fin 64) : s.Reaches E (s.drainLine i) := by
  unfold State.drainLine
  split
  · split
    · exact s.freeLine_reaches i
    · rename_i h; exact s.startWriteBack_reaches h _
    all_goals exact .refl
  · exact .refl

theorem State.settleLine_reaches (write : Bool) (i : Fin 64) : s.Reaches E (State.settleLine write s i) := by
  simp only [State.settleLine]
  split
  · exact s.freeLine_reaches i
  · rename_i h; exact s.startWriteBack_reaches h _
  · exact s.setLine_reaches (Line.follows_of_state rfl rfl rfl) id
  · exact .refl

theorem State.settle_reaches (write : Bool) (addr : Addr) (n : Nat) : s.Reaches E (s.settle write addr n) := by
  unfold State.settle
  generalize s.overlappedLines addr n = is
  induction is generalizing s with
  | nil => exact .refl
  | cons i is ih => exact .after (ih _) (s.settleLine_reaches write i)

theorem State.flushCheck_reaches : s.Reaches E s.flushCheck := by
  unfold State.flushCheck
  split
  · split <;> [exact .refl; exact s.endRequest_reaches _ _]
  · exact .refl

theorem State.drainedCheck_reaches : s.Reaches E s.drainedCheck := by
  unfold State.drainedCheck
  split
  · rename_i h
    exact .single (.awaitRelease (.inl h.1) ((AccCache.allFree_eq_true _).1 h.2))
  · exact .refl

theorem State.freezeCache_reaches : s.Reaches E s.freezeCache := by
  refine s.withAcc_reaches ?_
  exact AccCache.follows_mapLines (fun i l => l.freeze (decide (i ∈ s.acc.writeQueue))) rfl
    (fun i => ⟨(Line.follows_freeze _ _).1, (Line.follows_freeze _ _).2.2⟩) (by simp only)

theorem State.flushLines_reaches : s.Reaches E s.flushLines := by
  refine .after (startAllDirty_reaches _ _) (s.withAcc_reaches ?_)
  exact AccCache.follows_mapLines (fun _ l => l.markForFlush) rfl
    (fun i => ⟨(Line.follows_markForFlush _).1, (Line.follows_markForFlush _).2.2⟩) (by simp only)

theorem State.drainLines_reaches : s.Reaches E s.drainLines := by
  refine .after (startAllDirty_reaches _ _) (s.withAcc_reaches ?_)
  have hl (i : Fin 64) : (s.acc.mapLines fun _ l => l.beginDrain).line i = (s.acc.line i).beginDrain :=
    AccCache.line_mapLines _ _ _
  refine AccCache.follows_of_filter (fun i => decide (((s.acc.mapLines fun _ l => l.beginDrain).line i).state ≠ .free))
    (fun i => ?_) (fun i _ => by rw [decide_eq_true_iff]; rfl) (by simp only [AccCache.mapLines])
  show Line.Follows _ (AccCache.line (s.acc.mapLines fun _ l => l.beginDrain) i)
  rw [hl]
  exact Line.follows_beginDrain _

theorem State.applyOp_reaches (op : PendingOp) {i : Fin 64} (h : (s.line i).inUse) (hf : (s.line i).state ≠ .filling) :
    s.Reaches E (s.applyOp op i) := by
  refine .after (handRecords_reaches _ _) (.after (touch_reaches _ ?_) (s.setLine_reaches
    (Line.follows_replaceRecord hf _ _) (Line.replaceRecord_kept _ _ _).2.2.2))
  simpa using (Line.replaceRecord_kept _ _ _).2.2.2 h

end

end Sys2Proof.Machine
end

section
/-! SUPPORT. The elementary changes that the course of a request, the entry into HALTED and the completions are made
of. -/

namespace Sys2Proof.Machine

section

variable {E : List Event} {s t : State}

/-! ### The guards of the Request Path -/

theorem State.mayKeep.congr (h : s.mayKeep E) (hp : t.path = s.path) (hh : t.cm.hold = s.cm.hold) : t.mayKeep E := by
  rwa [State.mayKeep, hp, hh]

theorem State.mayHand.congr (h : s.mayHand E) (hp : t.path = s.path) (hm : t.cm.mode = s.cm.mode) : t.mayHand E := by
  rwa [State.mayHand, hp, hm]

theorem State.mayKeep_of_path {h : Held} (hp : s.path = some h) : s.mayKeep E := .inl (by simp [hp])

theorem State.mayHand_of_handing {h : Held} (hp : s.path = some h) (hh : h.handing = true) : s.mayHand E :=
  .inr (.inr ⟨h, hp, hh⟩)

theorem Mode.refusesCarried_eq_false (m : Mode) : m.refusesCarried = false ↔ m = .active ∨ m = .draining := by
  cases m <;> decide

theorem Mode.insertsWindows_iff (m : Mode) : m.insertsWindows = true ↔ m = .active ∨ m = .draining := by
  cases m <;> decide

theorem State.mayHand_of_walking {h : Held} (hp : s.path = some h) (hw : h.isWalking = true)
    (hm : s.cm.mode = .active ∨ s.cm.mode = .draining) : s.mayHand E :=
  .inr (.inl ⟨hm, h, hp, hw⟩)

/-! ### Finding a line -/

theorem State.lineFor_eq_none {backing : Addr} (h : s.lineFor backing = none) (j : Fin 64) (hj : (s.line j).inUse) :
    (s.line j).backing ≠ backing := by
  have := List.find?_eq_none.1 h j (List.mem_finRange j)
  simp only [decide_eq_true_eq, not_and] at this
  exact this hj

theorem State.of_lineFor_eq_some {backing : Addr} {i : Fin 64} (h : s.lineFor backing = some i) :
    (s.line i).inUse ∧ (s.line i).backing = backing := by
  simpa using List.find?_some h

end

section

variable {E : List Event} (s : State)

/-! ### Operations and reads on a line -/

theorem State.allocate_reaches {backing : Addr} {pending : List PendingOp} {r : Request} {waiting : Stage}
    {taken : Fin 64 → State → State} (hk : s.mayKeep E) (hh : s.mayHand E) (hlen : pending.length ≤ 8)
    (hnew : s.lineFor backing = none)
    (htaken : ∀ i u, State.mayKeep E u → State.mayHand E u → u.Reaches E (taken i u)) :
    s.Reaches E (s.allocate backing pending r waiting taken) := by
  unfold State.allocate
  split
  · refine .after (htaken _ _ (hk.congr ?_ ?_) (hh.congr ?_ ?_))
      (.single (.allocate _ backing pending r.origin hh hlen (State.lineFor_eq_none hnew))) <;> simp
  · rename_i i hv
    have hd : (s.line i).state = .dirty := by
      unfold State.allocation at hv
      split at hv
      · cases hv
      · split at hv
        · rename_i k hf
          have hs := List.find?_some hf
          split at hv <;> cases hv
          simp_all
        · cases hv
    refine .after (keep_reaches _ (hk.congr ?_ ?_) fun _ => hh.congr ?_ ?_) (s.startWriteBack_reaches hd true) <;> simp
  · exact s.keep_reaches hk fun _ => hh

theorem State.handOperation_reaches (r : Request) (op : PendingOp) (backing : Addr) (hk : s.mayKeep E)
    (hh : s.mayHand E) : s.Reaches E (s.handOperation r op backing) := by
  unfold State.handOperation
  split
  · rename_i hnew
    exact s.allocate_reaches hk hh (by simp) hnew fun _ u _ _ => u.finishPath_reaches
  · rename_i i hi
    obtain ⟨hu, -⟩ := State.of_lineFor_eq_some hi
    simp only
    split
    · rename_i hf
      split
      · rename_i hroom
        refine .after (finishPath_reaches _) (s.setLine_reaches
          ⟨fun _ => ⟨hu, rfl⟩, fun _ _ => hf, fun _ => ?_⟩ fun _ => hu)
        simpa [Config.pendingDepth] using hroom
      · exact s.keep_reaches hk fun _ => hh
    · rename_i hf
      exact .after (finishPath_reaches _) (s.applyOp_reaches op hu hf)

theorem State.serveRead_reaches (r : Request) (view : View) (backing : Addr) (hk : s.mayKeep E) :
    s.Reaches E (s.serveRead r view backing) := by
  unfold State.serveRead
  split
  · exact s.keep_elsewhere_reaches hk rfl rfl
  · rename_i i hi
    simp only
    split
    · exact s.keep_elsewhere_reaches hk rfl rfl
    · exact .after (finishPath_reaches _) (.after (answerRequest_reaches _ _ _)
        (s.touch_reaches (State.of_lineFor_eq_some hi).1))

theorem State.serveDrain_reaches (r : Request) (order : Order) (backing : Addr) (hk : s.mayKeep E)
    (hh : s.mayHand E) : s.Reaches E (s.serveDrain r order backing) := by
  unfold State.serveDrain
  split
  · rename_i hnew
    exact s.allocate_reaches hk hh (by simp) hnew fun _ u hu _ => u.keep_elsewhere_reaches hu rfl rfl
  · rename_i i hi
    obtain ⟨hu, -⟩ := State.of_lineFor_eq_some hi
    simp only
    split
    · exact s.keep_elsewhere_reaches hk rfl rfl
    · rename_i hf
      have hr := (Line.replaceRecord_kept (drained (s.line i).record) s.startedAge (s.line i)).2.2.2
      refine .after (finishPath_reaches _) (.after (answerRequest_reaches _ _ _) (.after (touch_reaches _ ?_)
        (s.setLine_reaches (Line.follows_replaceRecord hf _ _) hr)))
      simpa using hr hu

/-! ### The course of a request -/

theorem State.startForward_reaches (r : Request) (addr : Addr) (direct : Bool) (hk : s.mayKeep E) :
    s.Reaches E (s.startForward r addr direct) := by
  unfold State.startForward
  split
  · exact s.refuse_reaches r
  · exact .after (settle_reaches _ _ _ _) (s.keep_elsewhere_reaches hk rfl rfl)

/-- One that is refused in HALTED, and in BYPASS after it (R81). -/
theorem State.refused_or_reaches {r : Request} {u : State} (h : s.cm.mode.refusesCarried = false → s.Reaches E u) :
    s.Reaches E (if s.cm.mode.refusesCarried then s.refuse r else u) := by
  split
  · exact s.refuse_reaches r
  · rename_i hm; exact h (by simpa using hm)

theorem State.execute_reaches (r : Request) (d : Descriptor) (hk : s.mayKeep E)
    (hh : s.cm.mode.refusesCarried = false → s.mayHand E) : s.Reaches E (s.execute r d) := by
  simp only [State.execute]
  split
  · exact s.startForward_reaches r _ _ hk
  · exact s.refused_or_reaches fun _ => s.serveRead_reaches _ _ _ hk
  · exact s.refused_or_reaches fun hm => s.handOperation_reaches _ _ _ hk (hh hm)
  · exact s.refused_or_reaches fun _ => s.serveRead_reaches _ _ _ hk
  · exact s.refused_or_reaches fun hm => s.handOperation_reaches _ _ _ hk (hh hm)
  · exact s.refused_or_reaches fun hm => s.serveDrain_reaches _ _ _ hk (hh hm)
  · exact s.refused_or_reaches fun hm => s.handOperation_reaches _ _ _ hk (hh hm)

theorem State.judged_reaches (r : Request) (e : WindowEntry) (hk : s.mayKeep E)
    (hh : s.cm.mode.refusesCarried = false → s.mayHand E) : s.Reaches E (s.judged r e) := by
  unfold State.judged
  split
  · exact s.faultWith_reaches _ _
  · split
    · refine s.refused_or_reaches fun hm => ?_
      exact .after (keep_reaches _ hk fun _ => hh hm) (.single (.walker _))
    · exact s.execute_reaches _ _ hk hh

theorem State.lookUp_reaches (r : Request) (hk : s.mayKeep E) (hh : s.mayHand E) : s.Reaches E (s.lookUp r) := by
  unfold State.lookUp
  split
  · exact .after (judged_reaches _ _ _ hk fun _ => hh) (.single (.insert _ (.inr hh)))
  · exact .after (keep_reaches _ hk fun _ => hh) (.single (.walker _))

theorem State.sort_reaches (r : Request) (hE : .takeRequest ∈ E) (hk : s.mayKeep E) : s.Reaches E (s.sort r) := by
  unfold State.sort
  split
  · split <;> [exact s.faultWith_reaches _ _; exact s.refuse_reaches _]
  · split
    · exact s.startForward_reaches _ _ _ hk
    · split
      · rename_i hm
        split <;> [exact s.lookUp_reaches _ hk (.inl ⟨hE, hm⟩); exact s.faultWith_reaches _ _]
      · exact s.refuse_reaches _

theorem State.resumePath_reaches : s.Reaches E s.resumePath := by
  unfold State.resumePath
  split
  · exact s.settle_reaches _ _ _
  · rename_i hp
    exact s.handOperation_reaches _ _ _ (mayKeep_of_path hp) (mayHand_of_handing hp rfl)
  · rename_i hp
    exact s.serveDrain_reaches _ _ _ (mayKeep_of_path hp) (mayHand_of_handing hp rfl)
  all_goals exact .refl

theorem State.settlePath_reaches : s.Reaches E s.settlePath := by
  unfold State.settlePath
  split
  · exact s.settle_reaches _ _ _
  all_goals exact .refl

theorem State.afterLine_reaches (i : Fin 64) : s.Reaches E (s.afterLine i) :=
  .after (drainedCheck_reaches _) (.after (flushCheck_reaches _)
    (.after (resumePath_reaches _) (s.drainLine_reaches i)))

/-! ### Entering HALTED -/

/-- A refusal does not look at what the path holds. -/
theorem State.refuse_withPath (r : Request) (p : Option Held) : (s.withPath p).refuse r = s.refuse r := by
  unfold State.refuse State.answerRequest
  cases r.isWrite <;> cases r.readId <;> rfl

theorem State.enterHalted_eq : s.enterHalted = s.modeHalted.haltPath.freezeCache.haltRequest := rfl

@[simp] theorem State.modeHalted_path : s.modeHalted.path = s.path := rfl

theorem State.haltPath_reaches : s.Reaches E s.haltPath := by
  unfold State.haltPath
  split
  · exact s.refuse_reaches _
  · exact s.refuse_reaches _
  · split <;> [exact s.refuse_reaches _; exact .refl]
  · split <;> [exact .after (finishPath_reaches _) (s.answerRequest_reaches _ _); exact .refl]
  all_goals exact .refl

theorem State.haltRequest_reaches : s.Reaches E s.haltRequest := by
  unfold State.haltRequest
  split
  iterate 3 exact s.endRequest_reaches _ _
  all_goals exact .refl

/-- A request on its way to the cache is given up as the mode becomes HALTED. -/
theorem State.modeHalted_haltPath_reaches (hE : .halt ∈ E) (hm : s.cm.mode = .active ∨ s.cm.mode = .draining)
    (hl : ∃ i, (s.line i).inUse) : s.Reaches E s.modeHalted.haltPath := by
  have hgiven (r : Request) : s.Reaches E (s.modeHalted.refuse r) := by
    rw [← refuse_withPath _ r none]
    exact .after (refuse_reaches _ r) (.trans (.single .finish) (.single (State.Change.halt hE hm hl (by simp))))
  have hkept (h : ∀ h ∈ s.path, h.handing = false) : s.Reaches E s.modeHalted.haltPath :=
    .after (haltPath_reaches _) (.single (.halt hE hm hl h))
  cases hp : s.path with
  | none => exact hkept (by simp [hp])
  | some h =>
    obtain ⟨r, stage⟩ := h
    cases stage with
    | operation op backing =>
      rw [show s.modeHalted.haltPath = s.modeHalted.refuse r by simp [State.haltPath, hp]]; exact hgiven r
    | drainRead backing order =>
      rw [show s.modeHalted.haltPath = s.modeHalted.refuse r by simp [State.haltPath, hp]]; exact hgiven r
    | walking | forward _ _ | counterRead _ _ | onLine _ _ =>
      exact hkept fun h hh => by rw [hp] at hh; cases hh; rfl

theorem State.enterHalted_reaches (hE : .halt ∈ E) (hm : s.cm.mode = .active ∨ s.cm.mode = .draining)
    (hl : ∃ i, (s.line i).inUse) : s.Reaches E s.enterHalted :=
  .after (haltRequest_reaches _) (.after (freezeCache_reaches _) (s.modeHalted_haltPath_reaches hE hm hl))

/-! ### Fills and write-backs -/

theorem State.answerWaiter_reaches (w : Option (Request × View)) (a : View → Answer) :
    s.Reaches E (s.answerWaiter w a) := by
  unfold State.answerWaiter
  split <;> [exact .after (finishPath_reaches _) (s.answerRequest_reaches _ _); exact .refl]

theorem State.fillOkay_reaches {i : Fin 64} (h : (s.line i).state = .filling) (data : Payload) :
    s.Reaches E (s.fillOkay i data) := by
  simp only [State.fillOkay]
  refine .after (afterLine_reaches _ _) (.after (flushDirty_reaches _ _) (.after (answerWaiter_reaches _ _ _)
    (.after (handRecords_reaches _ _) ?_)))
  generalize hl : (s.line i).filled _ _ _ = l
  have hu : l.inUse := hl ▸ Line.filled_inUse _ _ _ _
  have hset : s.Reaches E (s.setLine i l) := s.setLine_reaches (hl ▸ Line.follows_filled h _ _ _) fun _ => hu
  split
  · exact hset
  · exact .after (touch_reaches _ (by simpa using hu)) hset

theorem State.fillError_reaches (i : Fin 64) : s.Reaches E (s.fillError i) :=
  .after (afterLine_reaches _ _) (.after (answerWaiter_reaches _ _ _) (.after (handRecord_reaches _ _)
    (s.freeLine_reaches i)))

theorem State.redirtied_reaches {i : Fin 64} (h : (s.line i).state = .writing) : s.Reaches E (s.redirtied i) := by
  have hset (age : Option Nat) (mark : Bool) : s.Reaches E (s.setLine i ((s.line i).written .dirty age mark)) :=
    s.setLine_reaches (Line.follows_written h _ _ _) fun _ => nofun
  simp only [State.redirtied]
  split
  · exact .after (touch_reaches _ (by simp [Line.written])) (hset _ _)
  · exact hset _ _

theorem State.writeBackOkay_reaches {i : Fin 64} (h : (s.line i).state = .writing) :
    s.Reaches E (s.writeBackOkay i) := by
  refine .after (afterLine_reaches _ _) ?_
  split
  · exact .after (flushDirty_reaches _ _) (s.redirtied_reaches h)
  · split
    · exact s.freeLine_reaches i
    · exact s.setLine_reaches (Line.follows_written h _ _ _) fun _ => nofun

theorem State.writeBackError_reaches (hE : .halt ∈ E) {i : Fin 64} (h : (s.line i).state = .writing) :
    s.Reaches E (s.writeBackError i) := by
  simp only [State.writeBackError]
  generalize hu : State.handRecord _ _ = u
  have hreach : s.Reaches E u := by
    rw [← hu]
    exact .after (handRecord_reaches _ _) (s.setLine_reaches (Line.follows_written h _ _ _) fun _ => nofun)
  have hline : ∃ i, (u.line i).inUse := ⟨i, by
    rw [← hu, State.line, (handRecord_frame _ _).2.2.2.2.1]
    simp [State.setLine, Line.written]⟩
  split
  · rename_i hm; exact .after (u.enterHalted_reaches hE (.inl hm) hline) hreach
  · rename_i hm; exact .after (u.enterHalted_reaches hE (.inr hm) hline) hreach
  all_goals exact hreach

theorem State.completeFill_reaches (i : Fin 64) (st : Status) (data : Payload) :
    s.Reaches E (s.completeFill i st data) := by
  unfold State.completeFill
  split
  · rename_i h
    cases st <;> [exact s.fillOkay_reaches h data; exact s.fillError_reaches i]
  · exact .refl

theorem State.completeWriteBack_reaches (hE : .halt ∈ E) (i : Fin 64) (st : Status) :
    s.Reaches E (s.completeWriteBack i st) := by
  unfold State.completeWriteBack
  split
  · rename_i h
    cases st <;> [exact s.writeBackOkay_reaches h; exact s.writeBackError_reaches hE h]
  · exact .refl

/-! ### The walk and the locked update -/

theorem State.walkFault_reaches (r : Request) (f : FaultInfo) : s.Reaches E (s.walkFault r f) :=
  .after (faultWith_reaches _ _ _) (.single (.walker _))

theorem State.insertEntry_reaches (e : WindowEntry) {r : Request} (hp : s.path = some ⟨r, .walking⟩) :
    s.Reaches E (s.insertEntry e) := by
  unfold State.insertEntry
  split
  · rename_i hm
    exact .single (.insert e (.inr (mayHand_of_walking hp rfl ((Mode.insertsWindows_iff _).1 hm))))
  · exact .refl

theorem State.dropEntry_reaches (window : Nat) : s.Reaches E (s.dropEntry window) :=
  .single (.forget _ List.filter_sublist)

theorem State.updateEntry_reaches (e : WindowEntry) : s.Reaches E (s.updateEntry e) := by
  unfold State.updateEntry
  split
  · rename_i h
    refine .single (.insert e (.inl fun hn => ?_))
    simp [findWindow, hn] at h
  · exact .refl

theorem State.updateAfterFailure_reaches (w : Walker) : s.Reaches E (s.updateAfterFailure w) := by
  unfold State.updateAfterFailure
  split <;> [exact s.dropEntry_reaches _; exact s.updateEntry_reaches _]

theorem State.completeDirRead_reaches (r : Request) (st : Status) (data : Payload) :
    s.Reaches E (s.completeDirRead r st data) := by
  simp only [State.completeDirRead]
  split
  · exact s.walkFault_reaches _ _
  · split
    · exact s.walkFault_reaches _ _
    · split <;> [exact s.walkFault_reaches _ _; exact .single (.walker _)]

theorem State.completeDescRead_reaches {r : Request} (st : Status) (data : Payload)
    (hp : s.path = some ⟨r, .walking⟩) : s.Reaches E (s.completeDescRead r st data) := by
  simp only [State.completeDescRead]
  split
  · exact s.walkFault_reaches _ _
  · split
    · exact s.walkFault_reaches _ _
    · refine .after (judged_reaches _ _ _ (mayKeep_of_path (h := ⟨r, .walking⟩) ?_) fun hm => ?_)
        (.after (insertEntry_reaches _ _ (r := r) ?_) (.single (.walker _)))
      · simpa using hp
      · exact mayHand_of_walking (h := ⟨r, .walking⟩) (by simpa using hp) rfl ((Mode.refusesCarried_eq_false _).1 hm)
      · simpa using hp

theorem State.completeLockedRead_reaches (r : Request) (st : Status) (data : Payload) :
    s.Reaches E (s.completeLockedRead r st data) := by
  unfold State.completeLockedRead
  cases st <;> exact .single (.walker _)

theorem State.unlock_reaches : s.Reaches E s.unlock := .single (.port _ (.inr ⟨rfl, rfl⟩))

theorem State.updateFailed_reaches (r : Request) : s.Reaches E (s.updateFailed r) :=
  .after (walkFault_reaches _ _ _) (.after (dropEntry_reaches _ _) s.unlock_reaches)

theorem State.completeUnlockingWrite_reaches {r : Request} (st : Status) (hp : s.path = some ⟨r, .walking⟩) :
    s.Reaches E (s.completeUnlockingWrite r st) := by
  simp only [State.completeUnlockingWrite]
  split
  · exact s.updateFailed_reaches r
  · split
    · exact .after (walkFault_reaches _ _ _) (.after (updateAfterFailure_reaches _ _) s.unlock_reaches)
    · split
      · exact .after (walkFault_reaches _ _ _) s.unlock_reaches
      · refine .after (execute_reaches _ _ _ (mayKeep_of_path (h := ⟨r, .walking⟩) ?_) fun hm => ?_)
          (.after (insertEntry_reaches _ _ (r := r) ?_) (.after (.single (.walker _)) s.unlock_reaches))
        · simpa [State.unlock] using hp
        · exact mayHand_of_walking (h := ⟨r, .walking⟩) (by simpa [State.unlock] using hp) rfl
            ((Mode.refusesCarried_eq_false _).1 hm)
        · simpa [State.unlock] using hp

end

end Sys2Proof.Machine
end

section
/-! SUPPORT. The elementary changes that the ring, the configuration read, the ports and the commands are made of: every
command is a run of them (`State.exec_reaches`). -/

namespace Sys2Proof.Machine

/-! ### The law of the ring (R131 to R139) -/

section

variable {r : RingWriter}

theorem RingWriter.fill_of_zero (h : r.produced = 0) (h' : r.consumed = 0) : r.fill = 0 := by
  simp [RingWriter.fill, h, h']

/-- A ring that is started, with both indices 0 and the PRODUCED write of 0 to be made (R138, R139). -/
theorem RingLaw.of_started (hsize : 4 ≤ r.size ∧ r.size ≤ 12) (hrestart : ∀ p ∈ r.restart, 4 ≤ p.2 ∧ p.2 ≤ 12)
    (hp : r.produced = 0) (hc : r.consumed = 0) (hphase : r.phase = .index) (hhand : r.inHand = none) : RingLaw r := by
  refine ⟨hsize.1, hsize.2, hrestart, ?_, ?_, ?_, ?_, fun _ _ => ⟨hp, hc⟩⟩
  · rw [RingWriter.fill_of_zero hp hc]; exact Nat.zero_le _
  · simp [hhand]
  · simp [hphase]
  · simp [hphase]

/-- A writer with nothing in hand and its phase IDLE. -/
theorem RingLaw.of_idle {r' : RingWriter} (h : RingLaw r) (hsize : r'.size = r.size) (hrestart : r'.restart = r.restart)
    (hfill : r'.fill ≤ 2 ^ r.size) (hphase : r'.phase = .idle) (hhand : r'.inHand = none) : RingLaw r' := by
  obtain ⟨h4, h12, hr, -⟩ := h
  exact ⟨hsize ▸ h4, hsize ▸ h12, hrestart ▸ hr, hsize ▸ hfill, by simp [hhand], fun _ => hhand, by simp [hphase],
    by simp [hphase]⟩

/-- The head record is taken in hand while there is room for it (R133). -/
theorem RingLaw.taken (h : RingLaw r) (hroom : r.isFull = false) (q : List EventRecord)
    (e : EventRecord) :
    RingLaw { r with queue := q, phase := .record, issued := false, inHand := some e } := by
  obtain ⟨h4, h12, hr, hfill, -⟩ := h
  have hne : r.fill ≠ 2 ^ r.size := by simpa [RingWriter.isFull] using hroom
  exact ⟨h4, h12, hr, hfill, fun _ => lt_of_le_of_ne hfill hne, nofun, fun _ => rfl, nofun⟩

/-- The record write has completed (R134). -/
theorem RingLaw.recordWritten (h : RingLaw r) (hphase : r.phase = .record) (b : Bool) :
    RingLaw { r with phase := .index, issued := b } := by
  obtain ⟨h4, h12, hr, hfill, hroom, hidle, hrec, hidx⟩ := h
  refine ⟨h4, h12, hr, hfill, hroom, nofun, nofun, fun _ hn => ?_⟩
  have hsome := hrec hphase
  rw [show r.inHand = none from hn] at hsome
  cases hsome

theorem RingWriter.fill_succ {size : Nat} (hs : size ≤ 12) (h : r.fill < 2 ^ size) :
    (r.produced + 1 - r.consumed).toNat = r.fill + 1 := by
  have h12 : 2 ^ size ≤ 2 ^ 12 := Nat.pow_le_pow_right (by decide) hs
  unfold RingWriter.fill at *
  have hlt : (r.produced - r.consumed).toNat < 4096 := lt_of_lt_of_le h h12
  rw [show r.produced + 1 - r.consumed = (r.produced - r.consumed) + 1 by ring]
  rw [BitVec.toNat_add]
  generalize (r.produced - r.consumed).toNat = n at hlt ⊢
  simp; omega

/-- The PRODUCED write has completed (R135, R138). -/
theorem RingLaw.announced (h : RingLaw r) (hphase : r.phase = .index) :
    RingLaw { r with produced := r.nextIndex, inHand := none, phase := .idle, issued := false } := by
  refine h.of_idle rfl rfl ?_ rfl rfl
  obtain ⟨h4, h12, hr, hfill, hroom, hidle, hrec, hidx⟩ := h
  show (r.nextIndex - r.consumed).toNat ≤ _
  unfold RingWriter.nextIndex
  split
  · rename_i hh
    rw [RingWriter.fill_succ h12 (hroom (by simp [hh]))]
    exact hroom (by simp [hh])
  · rename_i hh
    simp [(hidx hphase hh).2]

/-- CONSUMED moves up to PRODUCED at most (R137). -/
theorem RingLaw.consumedMoved (h : RingLaw r) {c : BitVec 16} (hc : r.consumedInRange c = true) :
    RingLaw { r with consumed := c } := by
  obtain ⟨h4, h12, hr, hfill, hroom, hidle, hrec, hidx⟩ := h
  have hle : (r.produced - c).toNat ≤ r.fill := by
    have := RingWriter.consumedInRange_iff.1 hc
    unfold RingWriter.fill
    bv_omega
  refine ⟨h4, h12, hr, hle.trans hfill, fun hh => lt_of_le_of_lt hle (hroom hh), hidle, hrec, fun hp hh => ?_⟩
  obtain ⟨hp0, hc0⟩ := hidx hp hh
  have := RingWriter.consumedInRange_iff.1 hc
  refine ⟨hp0, ?_⟩
  simp only [hp0, hc0] at this
  show c = 0
  bv_omega

theorem RingLaw.broken (h : RingLaw r) :
    RingLaw { r with state := .broken, inHand := none, phase := .idle, issued := false } :=
  h.of_idle rfl rfl h.2.2.2.1 rfl rfl

end

/-! ### Validation passed -/

theorem checkRing_size {cb : Addr} {c : LoadedConfig} {base : Addr} {n : Nat} (h : checkRing cb c base n = none) :
    4 ≤ n ∧ n ≤ 12 := by
  unfold checkRing at h
  split at h
  · cases h
  · omega

theorem validateActivate_size {cb : Addr} {st : Status} {a : ConfigArea} (h : validateActivate cb st a = none) :
    4 ≤ a.ringSize ∧ a.ringSize ≤ 12 := by
  unfold validateActivate at h
  split at h
  · cases h
  · split at h
    · cases h
    · split at h
      · cases h
      · exact checkRing_size ‹_›

theorem validateRestart_size {cb : Addr} {c : LoadedConfig} {st : Status} {a : ConfigArea}
    (h : validateRestart cb c st a = none) : 4 ≤ a.ringSize ∧ a.ringSize ≤ 12 := by
  unfold validateRestart at h
  split at h
  · cases h
  · exact checkRing_size h

section

variable {E : List Event} (s : State)

/-! ### The configuration read -/

theorem State.configFailed_reaches (code : ConfigCode) : s.Reaches E (s.configFailed code) :=
  .after (endRequest_reaches _ _ _) (.after (raiseConfigError_reaches _)
    (s.withCm_reaches (ControlMonitor.follows_of_same rfl rfl rfl rfl rfl id)))

theorem State.startRing_reaches {a : ConfigArea} (h : 4 ≤ a.ringSize ∧ a.ringSize ≤ 12) :
    s.Reaches E (s.startRing a) := by
  simp only [State.startRing]
  refine .after (setFlags_reaches _ rfl)
    (.after (withCm_reaches _ (ControlMonitor.follows_of_same rfl rfl rfl rfl rfl id))
    (.single (.ring _ (fun hr => ?_) id)))
  exact .of_started h hr.2.2.1 rfl rfl rfl rfl

theorem State.activateLoaded_reaches (hE : .activate ∈ E) {a : ConfigArea} (ha : 4 ≤ a.ringSize ∧ a.ringSize ≤ 12)
    (hm : s.cm.mode = .bypass) (hh : s.cm.hold.isSome = true) : s.Reaches E (s.activateLoaded a) := by
  simp only [State.activateLoaded]
  refine .after (releaseHold_reaches _) (.after (.single (.activate hE hm hh)) (.after (startRing_reaches _ ha)
    (.after (withAcc_reaches _ ?_) (s.withCm_reaches (ControlMonitor.follows_of_same rfl rfl rfl rfl rfl id)))))
  exact AccCache.follows_of_lines (fun _ => .refl _) (fun _ => id) rfl

theorem State.restartLoaded_reaches {a : ConfigArea} (h : 4 ≤ a.ringSize ∧ a.ringSize ≤ 12) :
    s.Reaches E (s.restartLoaded a) := by
  refine .after (.single (.ring _ (fun hr => ?_) id))
    (s.withCm_reaches (ControlMonitor.follows_of_same rfl rfl rfl rfl rfl id))
  obtain ⟨h4, h12, -, hrest⟩ := hr
  exact ⟨h4, h12, fun p hp => by cases hp; exact h, hrest⟩

theorem State.completeConfigRead_reaches (hE : .activate ∈ E) (st : Status) (data : Payload) :
    s.Reaches E (s.completeConfigRead st data) := by
  simp only [State.completeConfigRead]
  have hidle : s.Reaches E (s.withCm { s.cm with configRead := .idle }) :=
    s.withCm_reaches (ControlMonitor.follows_of_same rfl rfl rfl rfl rfl id)
  split
  · rename_i hhold
    split
    · exact .after (configFailed_reaches _ _) (.after (releaseHold_reaches _) hidle)
    · rename_i hv
      split
      · rename_i hm
        exact .after (activateLoaded_reaches _ hE (validateActivate_size hv) hm (by simp [hhold])) hidle
      · exact .after (releaseHold_reaches _) hidle
  · split
    · exact .after (configFailed_reaches _ _) (.after (releaseHold_reaches _) hidle)
    · rename_i hv
      exact .after (restartLoaded_reaches _ (validateRestart_size hv)) (.after (releaseHold_reaches _) hidle)
  · exact .after (releaseHold_reaches _) hidle

/-! ### The ring's writes and the mirror's -/

theorem State.breakRing_reaches : s.Reaches E s.breakRing :=
  .after (raiseRingBroken_reaches _) (.single (.ring _ (fun hr => hr.broken) id))

theorem State.zeroWriteDone_reaches (z : Option ZeroWrite) : s.Reaches E (s.zeroWriteDone z) := by
  have hring : s.Reaches E (s.withRing { s.ring with zeroWrite := none }) :=
    .single (.ring _ (fun hr => hr.of_indices rfl rfl rfl rfl rfl rfl) id)
  simp only [State.zeroWriteDone]
  split
  · exact .after (endRequest_reaches _ _ _) hring
  · exact .after (endRequest_reaches _ _ _) hring
  · exact hring

theorem RingWriter.inFlight_phase {phase : RingPhase} {r : RingWriter} (h : r.inFlight phase = true) :
    r.phase = phase := by
  simp only [RingWriter.inFlight, Bool.and_eq_true, decide_eq_true_eq] at h
  exact h.1

theorem State.completeRecordWrite_reaches (st : Status) : s.Reaches E (s.completeRecordWrite st) := by
  unfold State.completeRecordWrite
  split
  · rename_i h
    cases st
    · exact .single (.ring _ (fun hr => hr.recordWritten (RingWriter.inFlight_phase h) false) id)
    · exact s.breakRing_reaches
  · exact .refl

theorem State.completeProducedWrite_reaches (st : Status) : s.Reaches E (s.completeProducedWrite st) := by
  unfold State.completeProducedWrite
  split
  · rename_i h
    refine .after (zeroWriteDone_reaches _ _) ?_
    cases st
    · exact .single (.ring _ (fun hr => hr.announced (RingWriter.inFlight_phase h)) id)
    · exact s.breakRing_reaches
  · exact .refl

theorem State.completeMirrorWrite_reaches (st : Status) : s.Reaches E (s.completeMirrorWrite st) := by
  have hdone : s.Reaches E (s.withCm { s.cm with mirror := { s.cm.mirror with inFlight := false } }) :=
    s.withCm_reaches (ControlMonitor.follows_of_same rfl rfl rfl rfl rfl id)
  unfold State.completeMirrorWrite
  cases st <;> [exact hdone; exact .after (raiseMirrorFault_reaches _) hdone]

/-! ### Every completion -/

theorem State.completeForwardedWrite_reaches (o : Origin) (backing : Option Addr) (st : Status) :
    s.Reaches E (s.completeForwardedWrite o backing st) := by
  unfold State.completeForwardedWrite
  cases st <;> [exact .refl; exact s.handRecord_reaches _]

/-- A completion for the request whose walk is being made. -/
theorem State.forWalk_reaches {f : Request → State → State}
    (h : ∀ r, s.path = some ⟨r, .walking⟩ → s.Reaches E (f r s)) : s.Reaches E (s.forWalk f) := by
  unfold State.forWalk
  split
  · exact h _ ‹_›
  all_goals exact .refl

theorem State.complete_reaches (hh : .halt ∈ E) (ha : .activate ∈ E) (p : Purpose) (st : Status) (data : Payload) :
    s.Reaches E (s.complete p st data) := by
  cases p with
  | forwardedRead id n => cases st <;> exact s.answerRead_reaches _ _
  | forwardedWrite o backing => exact s.completeForwardedWrite_reaches _ _ _
  | counterRead id view => cases st <;> exact s.answerRead_reaches _ _
  | dirRead => exact s.forWalk_reaches fun r _ => s.completeDirRead_reaches r st data
  | descRead => exact s.forWalk_reaches fun r hp => s.completeDescRead_reaches st data hp
  | lockedRead => exact s.forWalk_reaches fun r _ => s.completeLockedRead_reaches r st data
  | unlockingWrite => exact s.forWalk_reaches fun r hp => s.completeUnlockingWrite_reaches st hp
  | release => exact s.forWalk_reaches fun r _ => s.updateFailed_reaches r
  | fill i => exact s.completeFill_reaches i st data
  | writeBack i => exact s.completeWriteBack_reaches hh i st
  | configRead => exact s.completeConfigRead_reaches ha st data
  | ringRecord => exact s.completeRecordWrite_reaches st
  | ringProduced => exact s.completeProducedWrite_reaches st
  | mirror => exact s.completeMirrorWrite_reaches st

/-! ### The Downstream Port -/

theorem State.setSlotState_reaches (hp : .port ∈ E) (i : Fin 8) (x : SlotState) : s.Reaches E (s.setSlotState i x) :=
  .single (.port _ (.inl hp))

theorem State.completeOldest_reaches (hp : .port ∈ E) (hh : .halt ∈ E) (ha : .activate ∈ E) (i : Fin 8)
    (after : SlotState) (p : Purpose) (st : Status) (data : Payload) :
    s.Reaches E (s.completeOldest i after p st data) :=
  .after (complete_reaches _ hh ha p st data) (.after (.single (.port _ (.inl hp))) (s.setSlotState_reaches hp i after))

theorem State.deliverHeld_reaches (hp : .port ∈ E) (hh : .halt ∈ E) (ha : .activate ∈ E) (n : Nat) :
    s.Reaches E (s.deliverHeld n) := by
  induction n generalizing s with
  | zero => exact .refl
  | succ n ih =>
    unfold State.deliverHeld
    split
    · exact .refl
    · split
      · exact .after (ih _) (s.completeOldest_reaches hp hh ha _ _ _ _ _)
      all_goals exact .refl

theorem State.respond_reaches (hp : .port ∈ E) (hh : .halt ∈ E) (ha : .activate ∈ E) (i : Fin 8)
    (st : Status) (data : Payload) :
    s.Reaches E (s.respond i st data) := by
  simp only [State.respond]
  split
  · exact .single (.port _ (.inl hp))
  · split
    · split
      · exact .after (deliverHeld_reaches _ hp hh ha _) (s.completeOldest_reaches hp hh ha _ _ _ _ _)
      · exact s.setSlotState_reaches hp _ _
    · exact s.setSlotState_reaches hp _ _
    all_goals exact .refl

theorem State.expire_reaches (hp : .port ∈ E) (hh : .halt ∈ E) (ha : .activate ∈ E) (i : Fin 8) :
    s.Reaches E (s.expire i) := by
  unfold State.expire
  split
  · split
    · exact .after (deliverHeld_reaches _ hp hh ha _) (s.completeOldest_reaches hp hh ha _ _ _ _ _)
    · exact .refl
  all_goals exact .refl

theorem State.observe_reaches (addr : Addr) (shape : Shape) (data : List Byte) :
    s.Reaches E (s.observe addr shape data) :=
  .after (withCm_reaches _ (ControlMonitor.follows_of_same rfl rfl rfl rfl rfl id))
    (.single (.forget _ List.filter_sublist))

theorem Mirror.issue_acks (w : MirrorWord) (m : Mirror) : (m.issue w).acks.length ≤ m.acks.length := by
  cases w <;> simp [Mirror.issue]

theorem State.requesterIssued_reaches (q : MemRequest) (p : Purpose) : s.Reaches E (s.requesterIssued q p) := by
  have hcache (c : AccCache) (hl : c.lines = s.acc.lines) (ho : c.order = s.acc.order) : s.Reaches E (s.withAcc c) :=
    s.withAcc_reaches (AccCache.follows_of_lines (fun i => AccCache.line_congr hl i ▸ .refl _)
      (fun i => AccCache.line_congr hl i ▸ id) ho)
  have hring : s.Reaches E (s.withRing { s.ring with issued := true }) :=
    .single (.ring _ (fun hr => hr.of_indices rfl rfl rfl rfl rfl rfl) id)
  cases p with
  | writeBack i => exact hcache _ rfl rfl
  | fill i => exact hcache _ rfl rfl
  | forwardedRead id n => exact s.finishPath_reaches
  | counterRead id view => exact s.finishPath_reaches
  | forwardedWrite o backing =>
    cases q with
    | write addr shape data => exact .after (finishPath_reaches _) (s.observe_reaches _ _ _)
    | read _ _ | lockedRead _ | unlockingWrite _ _ | release _ => exact s.finishPath_reaches
  | dirRead | descRead | unlockingWrite | release => exact .single (.walker _)
  | lockedRead => exact .after (.single (.port _ (.inr ⟨rfl, rfl⟩))) (.single (.walker _))
  | configRead => exact s.withCm_reaches (ControlMonitor.follows_of_same rfl rfl rfl rfl rfl id)
  | ringRecord => exact hring
  | ringProduced => exact hring
  | mirror =>
    unfold State.requesterIssued
    simp only
    split
    · exact s.withCm_reaches (ControlMonitor.follows_of_same rfl rfl rfl rfl rfl (Mirror.issue_acks _ _).trans)
    · exact .refl

theorem State.grant_reaches (hp : .port ∈ E) : s.Reaches E s.grant := by
  unfold State.grant
  split
  · split
    · exact .after (requesterIssued_reaches _ _ _) (.single (.port _ (.inl hp)))
    · exact .refl
  · exact .refl

/-! ### Words -/

theorem State.beginLeaving_reaches (hE : .beginDraining ∈ E) : s.Reaches E s.beginLeaving := by
  unfold State.beginLeaving
  split
  · rename_i hm
    exact .after (placeHold_reaches _ _) (.single (.beginDraining hE hm))
  · rename_i hm
    exact .single (.beginDiscard hm)
  · exact s.endRequest_reaches _ _
  · exact .refl

theorem Command.carryOut_reaches (hE : .beginDraining ∈ E) (c : Command) : s.Reaches E (c.carryOut s) := by
  cases c with
  | activate => exact s.placeHold_reaches _
  | deactivate => exact s.beginLeaving_reaches hE
  | purge => exact .after (State.endRequest_reaches _ _ _) (.single (.forget _ (List.nil_sublist _)))
  | flush => exact .after (State.flushCheck_reaches _) s.flushLines_reaches
  | ringRestart => exact s.placeHold_reaches _
  | clearStatus => exact .after (State.endRequest_reaches _ _ _) s.clearStatus_reaches

theorem State.consume_reaches (c : BitVec 16) : s.Reaches E (s.consume c) := by
  unfold State.consume
  split
  · rename_i h
    exact .single (.ring _ (fun hr => hr.consumedMoved h) id)
  · split
    · exact .refl
    all_goals exact s.raiseIndexError_reaches

theorem State.takeWord_reaches (hE : .beginDraining ∈ E) (w : ControlWord) : s.Reaches E (s.takeWord w) := by
  cases w with
  | consumed index => exact s.consume_reaches index
  | request code tag =>
    unfold State.takeWord
    simp only
    split
    · exact .refl
    · split
      · unfold State.onRequest
        split
        · exact s.formAck_reaches _
        · split
          · exact s.formAck_reaches _
          · exact .after (Command.carryOut_reaches _ hE _)
              (s.withCm_reaches (ControlMonitor.follows_of_same rfl rfl rfl rfl rfl id))
      · exact s.formAck_reaches _

theorem State.withRecognised_reaches (ws : List ControlWord) : s.Reaches E (s.withCm { s.cm with recognised := ws }) :=
  s.withCm_reaches (ControlMonitor.follows_of_same rfl rfl rfl rfl rfl id)

theorem State.takeWords_reaches (hE : .beginDraining ∈ E) (ws : List ControlWord) : s.Reaches E (s.takeWords ws) := by
  induction ws generalizing s with
  | nil => exact .refl
  | cons w rest ih => exact .after (ih _) (.after (takeWord_reaches _ hE w) (s.withRecognised_reaches rest))

theorem State.takeThrough_reaches (hE : .beginDraining ∈ E) (w : ControlWord) (ws : List ControlWord) :
    s.Reaches E (s.takeThrough w ws) := by
  induction ws generalizing s with
  | nil => exact s.takeWord_reaches hE w
  | cons h rest ih =>
    have hhead := Relation.ReflTransGen.trans (s.withRecognised_reaches (E := E) rest) (takeWord_reaches _ hE h)
    simp only [State.takeThrough]
    split <;> [exact hhead; exact .after (ih _) hhead]

theorem State.onWord_reaches (hE : .beginDraining ∈ E) (w : ControlWord) : s.Reaches E (s.onWord w) := by
  unfold State.onWord
  split <;> [exact .refl; exact s.takeThrough_reaches hE w _]

/-! ### The Control Monitor's and the ring's own steps -/

theorem State.beginDrain_reaches (hE : .beginDrain ∈ E) (hh : s.cm.hold.isSome = true) (hl : s.cm.leaving = .starting) :
    s.Reaches E s.beginDrain := by
  simp only [State.beginDrain]
  refine .after (drainedCheck_reaches _) (.after (releaseHold_reaches _) (.after (.single (.beginDrain hE ?_ ?_ ?_))
    (.after (drainLines_reaches _) (.single (.forget _ (List.nil_sublist _))))))
  · simpa using hh
  · simpa using hl
  · simp

theorem AccCache.follows_reset (c : AccCache) {d : AccCache} (hl : d.lines = AccCache.reset.lines) (ho : d.order = []) :
    c.Follows d := by
  have hd (i : Fin 64) : d.line i = Line.empty := by
    rw [AccCache.line, hl]; simp [AccCache.reset]
  exact AccCache.follows_of_filter (fun _ => false) (fun i => hd i ▸ Line.follows_empty _)
    (fun i _ => by rw [hd]; simp [Line.empty]) (by simp [ho])

theorem State.discardLines_reaches (hl : s.cm.leaving = .discarding) : s.Reaches E s.discardLines := by
  simp only [State.discardLines]
  refine .after (.single (.awaitRelease (.inr ?_) fun i => ?_)) (.after (raiseDataLost_reaches _)
    (s.withAcc_reaches (s.acc.follows_reset rfl rfl)))
  · simpa [State.raiseDataLost, State.setFlags] using hl
  · simp [State.line, AccCache.line, AccCache.reset, Line.empty]

theorem State.takeRecord_reaches : s.Reaches E s.takeRecord := by
  have hdropped : s.Reaches E (s.withRing { s.ring with queue := [] }) :=
    .single (.ring _ (fun hr => hr.of_indices rfl rfl rfl rfl rfl rfl) fun _ => Nat.zero_le _)
  obtain ⟨-, h⟩ | ⟨e, rest, hq, -, hroom, h⟩ | ⟨-, -, h⟩ | ⟨-, h⟩ := s.takeRecord_cases <;> rw [h]
  · exact .single (.ring _ (fun hr => hr.taken hroom rest e) fun hlen => by simp [hq] at hlen ⊢; omega)
  · exact .after (raiseOverrun_reaches _) hdropped
  · exact hdropped

theorem State.tryRestart_reaches : s.Reaches E s.tryRestart := by
  unfold State.tryRestart
  split
  · rename_i base size hr
    split
    · refine .after (setFlags_reaches _ rfl) (.single (.ring _ (fun hlaw => ?_) id))
      exact .of_started (hlaw.2.2.1 (base, size) hr) (by simp) rfl rfl rfl rfl
    · exact .refl
  · exact .refl

theorem State.releaseRing_reaches (hE : .release ∈ E) (hl : s.cm.leaving = .releasing) : s.Reaches E s.releaseRing := by
  simp only [State.releaseRing]
  exact .after (endRequest_reaches _ _ _) (.after (.single (.release hE hl))
    (.single (.ring _ (fun hr => hr.of_indices rfl rfl rfl rfl rfl rfl) id)))

/-! ### The forced bypass -/

theorem State.abandonLoad_reaches : s.Reaches E s.abandonLoad := by
  have hset (c : ConfigRead) (p : Option Hold) : s.Reaches E (s.withCm { s.cm with configRead := c, placed := p }) :=
    s.withCm_reaches (ControlMonitor.follows_of_same rfl rfl rfl rfl rfl id)
  unfold State.abandonLoad
  split
  · exact hset _ _
  · exact .after (releaseHold_reaches _) (hset _ _)
  · exact hset _ _

theorem State.abandonRequest_reaches : s.Reaches E s.abandonRequest := by
  unfold State.abandonRequest
  split
  · exact .after (endRequest_reaches _ _ _) s.abandonLoad_reaches
  · exact .after (endRequest_reaches _ _ _) s.abandonLoad_reaches
  · exact s.endRequest_reaches _ _

theorem State.forcedBypass_reaches (hE : .beginDraining ∈ E) : s.Reaches E s.forcedBypass := by
  unfold State.forcedBypass
  split
  · exact .refl
  · exact .after (beginLeaving_reaches _ hE) (.after
      (withCm_reaches _ (ControlMonitor.follows_of_same rfl rfl rfl rfl rfl id)) s.abandonRequest_reaches)

/-! ### The link -/

theorem Link.receive_buffer (data : Byte) (l : Link) (h : l.buffer.length ≤ 8) :
    (l.receive data).buffer.length ≤ 8 := by
  unfold Link.receive
  split
  · exact h
  · split
    · rename_i hroom
      simpa [Config.bufferDepth] using hroom
    · exact Nat.zero_le _

theorem Link.arrive_buffer (data : Byte) (parity stop : Bool) (l : Link) (h : l.buffer.length ≤ 8) :
    (l.arrive data parity stop).buffer.length ≤ 8 := by
  unfold Link.arrive
  split
  · exact h
  · simp only
    split
    · exact Link.receive_buffer _ _ h
    · exact Nat.zero_le _

theorem Link.gapExpired_buffer (l : Link) : l.gapExpired.buffer = l.buffer := by
  simp only [Link.gapExpired]; split <;> simp_all

theorem State.withLink_reaches {l : Link} (h : s.link.buffer.length ≤ 8 → l.buffer.length ≤ 8) :
    s.Reaches E (s.withLink l) := .single (.link l h)

theorem State.onLink_reaches {f : Link → Link} (h : ∀ l : Link, l.buffer.length ≤ 8 → (f l).buffer.length ≤ 8) :
    s.Reaches E (s.onLink f) := by
  unfold State.onLink
  split <;> [exact .refl; exact s.withLink_reaches (h _)]

theorem State.answerLink_reaches (status : Byte) (data : BitVec 32) (b : Bool) :
    s.Reaches E (s.answerLink status data b) := s.withLink_reaches id

theorem State.extendFrame_reaches (taken : List Byte) (b : Byte) : s.Reaches E (s.extendFrame taken b) := by
  simp only [State.extendFrame]
  split
  · exact s.withLink_reaches id
  · unfold State.judgeFrame
    split
    · exact .after (answerLink_reaches _ _ _ _) (s.withLink_reaches id)
    · split <;> [exact s.answerLink_reaches _ _ _; exact s.withLink_reaches id]

theorem State.takeByte_reaches : s.Reaches E s.takeByte := by
  unfold State.takeByte
  split
  · rename_i hb _
    exact .after (extendFrame_reaches _ _ _) (s.withLink_reaches fun h => by simp [hb] at h ⊢; omega)
  · rename_i hb _
    split <;> exact .after (extendFrame_reaches _ _ _) (s.withLink_reaches fun h => by simp [hb] at h ⊢; omega)
  · exact .refl

theorem State.onCommand_reaches {c : LinkCommand} {act : State → State} (h : s.Reaches E (act s)) :
    s.Reaches E (s.onCommand c act) := by
  unfold State.onCommand
  split
  · exact .refl
  · split
    · split <;> [exact h; exact .refl]
    · exact h
    all_goals exact .refl

theorem State.moveControlBlock_reaches (base : Addr) : s.Reaches E (s.moveControlBlock base) :=
  .after (pushAck_reaches _ _) (s.withCm_reaches (ControlMonitor.follows_of_same rfl rfl rfl rfl rfl id))

theorem State.responseDone_reaches (hE : .reset ∈ E) : s.Reaches E s.responseDone := by
  unfold State.responseDone
  split
  · simp only
    split <;> [exact .after (.single (.softRestart hE)) (s.withLink_reaches id); exact s.withLink_reaches id]
  · exact .refl

/-! ### The Upstream Port and the resets -/

theorem State.accept_reaches (b : BusRequest) (h : s.acceptHigh = true) : s.Reaches E (s.accept b) := by
  simp only [State.acceptHigh, Config.portDepth, Bool.and_eq_true] at h
  obtain ⟨⟨-, hi⟩, hr⟩ := h
  replace hi := of_decide_eq_true hi
  replace hr := of_decide_eq_true hr
  unfold State.accept
  cases hk : b.kind
  · exact .single (.upstream _ (fun _ => by simpa using hi) fun _ => by simpa using hr)
  · exact .single (.upstream _ (fun _ => by simpa using hi) id)

theorem State.takeAnswer_reaches : s.Reaches E s.takeAnswer := by
  unfold State.takeAnswer
  split
  · rename_i e rest hq
    split
    · exact .single (.upstream _ id fun h => by simp [hq] at h ⊢; omega)
    · exact .refl
  · exact .refl

theorem State.takeRequestUp_reaches (hE : .takeRequest ∈ E) (h : s.mayTake = true) : s.Reaches E s.takeRequestUp := by
  simp only [State.mayTake, Bool.and_eq_true, Option.isNone_iff_eq_none] at h
  obtain ⟨⟨-, hhold⟩, -⟩ := h
  unfold State.takeRequestUp
  split
  · rename_i r rest hq
    split
    · exact .refl
    · exact .after (sort_reaches _ r hE (.inr ⟨hE, hhold⟩))
        (.single (.upstream _ (fun h => by simp [hq] at h ⊢; omega) id))
  · exact .refl

theorem State.assertRstn_eq : s.assertRstn =
    (((s.withAcc (s.acc.mapLines fun _ l => { l with age := none })).withDown (s.down.abandon false)).withLink
      { s.link with gapRunning := false, parser := .idle }).withPins { s.pins with rstnAsserted := true } := by
  simp only [State.assertRstn, State.withAcc, State.withDown, State.withLink, State.withPins]

theorem State.assertRstn_reaches (hp : .port ∈ E) : s.Reaches E s.assertRstn := by
  rw [State.assertRstn_eq]
  refine .after (.single (.pins _)) (.after (.single (.link _ id)) (.after (.single (.port _ (.inl hp)))
    (s.withAcc_reaches ?_)))
  exact AccCache.follows_mapLines (fun _ l => { l with age := none }) rfl
    (fun _ => ⟨Line.follows_of_state rfl rfl rfl, id⟩) (Eq.refl _)

theorem State.ageExpired_reaches (i : Fin 64) : s.Reaches E (s.ageExpired i) := by
  unfold State.ageExpired
  split
  · rename_i h; exact .after (settlePath_reaches _) (s.startWriteBack_reaches h.1 false)
  · exact .refl

theorem State.endStale_reaches (hp : .port ∈ E) (i : Fin 8) : s.Reaches E (s.endStale i) := by
  unfold State.endStale
  split
  · exact .single (.port _ (.inl hp))
  all_goals exact .refl

/-! ### Every command -/

/-- A command's step comes after the words that wait: they are taken first, and then the step is made (R145; log 3). -/
theorem State.afterWords_reaches {act : State → State} (h : ∀ u : State, u.Reaches E (act u)) :
    ∃ u, s.Reaches [.beginDraining] u ∧ u.Reaches E (s.afterWords act) := by
  unfold State.afterWords
  split
  · exact ⟨s, .refl, h s⟩
  · exact ⟨_, s.takeWords_reaches (by simp) _, h _⟩

/-- A step guarded by a condition. -/
theorem State.guarded_reaches {p : Prop} [Decidable p] {u : State} (h : p → s.Reaches E u) :
    s.Reaches E (if p then u else s) := by
  split <;> [exact h ‹_›; exact .refl]

/-- Every command is a run of elementary changes: those of the words that wait and of a forced bypass, and then those of
its own step. -/
theorem State.exec_reaches {c : Instr} {s t : State} (h : exec c s = .next t) :
    ∃ u, s.Reaches [.beginDraining] u ∧ u.Reaches (eventsOf c) t := by
  have hown {t : State} (h : s.Reaches (eventsOf c) t) : ∃ u, s.Reaches [.beginDraining] u ∧ u.Reaches (eventsOf c) t :=
    ⟨s, .refl, h⟩
  have hword {t : State} (h : s.Reaches [.beginDraining] t) :
      ∃ u, s.Reaches [.beginDraining] u ∧ u.Reaches (eventsOf c) t :=
    ⟨t, h, .refl⟩
  cases c with
  | upstreamRequest b =>
    simp only [exec, execUpstreamRequest] at h
    split at h <;> cases h
    exact hown (s.guarded_reaches fun ha => s.accept_reaches b ha)
  | readAnswerTaken =>
    cases h
    refine hown ?_
    split <;> [exact .refl; exact s.takeAnswer_reaches]
  | requestTaken =>
    cases h
    exact s.afterWords_reaches fun u => u.guarded_reaches fun hm => u.takeRequestUp_reaches (by simp [eventsOf]) hm
  | arbiterGrant =>
    cases h
    refine s.afterWords_reaches fun u => ?_
    split <;> [exact .refl; exact u.grant_reaches (by simp [eventsOf])]
  | requestNone tag => cases h; exact hword (s.onWord_reaches (by simp) _)
  | refusedCommand code tag =>
    simp only [exec, execRefusedCommand] at h
    split at h <;> cases h
    exact hword (s.onWord_reaches (by simp) _)
  | activate tag | deactivate tag | purge tag | flush tag | ringRestart tag | clearStatus tag | consumedWrite index =>
    cases h; exact hword (s.onWord_reaches (by simp) _)
  | downstreamResponse slot st data =>
    cases h
    exact s.afterWords_reaches fun u => u.respond_reaches (by simp [eventsOf]) (by simp [eventsOf])
      (by simp [eventsOf]) _ _ _
  | responseTimerExpiry slot =>
    cases h
    refine s.afterWords_reaches fun u => ?_
    split <;> [exact .refl; exact u.expire_reaches (by simp [eventsOf]) (by simp [eventsOf]) (by simp [eventsOf]) _]
  | stalePeriodExpiry slot => cases h; exact hown (s.endStale_reaches (by simp [eventsOf]) slot)
  | ageTimerExpiry line =>
    cases h
    refine s.afterWords_reaches fun u => ?_
    split <;> [exact .refl; exact u.ageExpired_reaches line]
  | drainBegin =>
    cases h
    exact s.afterWords_reaches fun u => u.guarded_reaches fun hg =>
      u.beginDrain_reaches (by simp [eventsOf]) (by simp [hg.1]) hg.2.1
  | discard =>
    cases h
    exact s.afterWords_reaches fun u => u.guarded_reaches fun hg => u.discardLines_reaches hg.1
  | ringReleased =>
    cases h
    exact s.afterWords_reaches fun u => u.guarded_reaches fun hg => u.releaseRing_reaches (by simp [eventsOf]) hg.1
  | ringTakeRecord =>
    cases h
    exact s.afterWords_reaches fun u => u.guarded_reaches fun _ => u.takeRecord_reaches
  | ringRestartCarryOut => cases h; exact s.afterWords_reaches fun u => u.tryRestart_reaches
  | characterArrival data parity stop =>
    cases h; exact hown (s.onLink_reaches (Link.arrive_buffer data parity stop))
  | gapTimerExpiry =>
    cases h
    refine hown (s.onLink_reaches fun l hl => ?_)
    split <;> [exact Link.gapExpired_buffer l ▸ hl; exact hl]
  | parserTakeByte =>
    cases h
    refine hown ?_
    split <;> [exact .refl; exact s.takeByte_reaches]
  | read register =>
    cases h
    refine s.afterWords_reaches fun u => u.onCommand_reaches ?_
    split <;> exact u.answerLink_reaches _ _ _
  | write register data =>
    simp only [exec, execWrite] at h
    split at h <;> cases h
    exact hown (s.onCommand_reaches (s.answerLink_reaches _ _ _))
  | writeCbBase data =>
    cases h
    refine s.afterWords_reaches fun u => u.onCommand_reaches ?_
    split
    · exact .after (answerLink_reaches _ _ _ _) (u.moveControlBlock_reaches data)
    · exact u.answerLink_reaches _ _ _
  | forceBypass =>
    cases h
    have hbypass (u : State) : u.Reaches [.beginDraining]
        (u.onCommand .forceBypass fun t => t.forcedBypass.answerLink statusOk 0 false) :=
      u.onCommand_reaches (.after (answerLink_reaches _ _ _ _) (u.forcedBypass_reaches (by simp)))
    obtain ⟨u, hu, hact⟩ := s.afterWords_reaches hbypass
    exact hword (hu.trans hact)
  | clearFlags =>
    cases h
    refine s.afterWords_reaches fun u => u.onCommand_reaches ?_
    exact .after (answerLink_reaches _ _ _ _) (.after (withLink_reaches _ id) u.clearStatus_reaches)
  | restart => cases h; exact hown (s.onCommand_reaches (s.answerLink_reaches _ _ _))
  | mlctsAsserted => cases h; exact hown (.after (onLink_reaches _ fun _ hl => hl) (.single (.pins _)))
  | responseSent =>
    cases h
    refine hown ?_
    split <;> [exact .refl; exact s.responseDone_reaches (by simp [eventsOf])]
  | rstnAssert =>
    cases h
    refine s.afterWords_reaches fun u => ?_
    split <;> [exact .refl; exact u.assertRstn_reaches (by simp [eventsOf])]
  | rstnRelease cbsel mlrate =>
    cases h
    exact hown (s.guarded_reaches fun _ => .single (.releaseRstn (by simp [eventsOf]) cbsel mlrate))
  | mlctsDeasserted => cases h; exact hown (.single (.pins _))
  | responseByteSent => cases h; exact hown (s.onLink_reaches fun _ hl => hl)
  | startBitBegun =>
    cases h
    refine hown (s.onLink_reaches fun l hl => ?_)
    split <;> exact hl
  | mlrxStopLevelRestored => cases h; exact hown (s.onLink_reaches fun _ hl => hl)

end

end Sys2Proof.Machine
end

section
/-! SUPPORT. The laws that every step keeps (R49, R82, R83, R113, R131, R147, R167): each elementary change
keeps them. -/

namespace Sys2Proof.Machine

section

variable {E : List Event} {s t : State}

/-! ### Laws that every step keeps -/

/-- What every elementary change keeps, every command keeps. -/
theorem exec_keeps {P : State → Prop} (hchange : ∀ E u v, State.Change E u v → P u → P v) {c : Instr}
    (h : exec c s = .next t) (hs : P s) : P t := by
  obtain ⟨u, hu, ht⟩ := State.exec_reaches h
  exact ht.keeps (hchange _) (hu.keeps (hchange _) hs)

/-- What every elementary change keeps, whatever the queue holds, every step keeps. -/
theorem step_keeps {P : State → Prop} (hchange : ∀ E u v, State.Change E u v → P u → P v)
    (hqueue : ∀ (u : State) q, P u → P { u with pending := q }) (h : step s = .next t) (hs : P s) : P t := by
  unfold step at h
  split at h
  · cases h; exact hs
  · exact exec_keeps hchange h (hqueue _ _ hs)

/-- No elementary change touches the queue of the commands that wait. -/
theorem State.Change.pending (h : State.Change E s t) : t.pending = s.pending := by
  cases h <;> rfl

/-! ### The Window Cache (R49, R50) -/

theorem insertWindow_length (e : WindowEntry) (es : List WindowEntry) (h : es.length ≤ 32) :
    (insertWindow e es).length ≤ 32 := by
  have hrest : (removeWindow e.window es).length ≤ 32 := (List.length_filter_le _ _).trans h
  simp only [insertWindow, List.length_append, List.length_singleton]
  split
  · rename_i hroom; exact hroom
  · rw [List.length_drop]; omega

theorem insertWindow_nodup (e : WindowEntry) {es : List WindowEntry} (h : (es.map (·.window)).Nodup) :
    ((insertWindow e es).map (·.window)).Nodup := by
  have hrest : ((removeWindow e.window es).map (·.window)).Nodup := h.sublist (List.filter_sublist.map _)
  have hnew : e.window ∉ (removeWindow e.window es).map (·.window) := by simp [removeWindow]
  have hsub : (if (removeWindow e.window es).length < Config.windowEntries then removeWindow e.window es
      else (removeWindow e.window es).drop 1).Sublist (removeWindow e.window es) := by
    split <;> [exact .refl _; exact List.drop_sublist _ _]
  simp only [insertWindow, List.map_append, List.map_cons, List.map_nil]
  refine List.nodup_append.2 ⟨hrest.sublist (hsub.map _), by simp, fun a ha b hb => ?_⟩
  rw [List.mem_singleton.1 hb]
  rintro rfl
  exact hnew ((hsub.map _).subset ha)

theorem State.Change.windowLaw (h : State.Change E s t) (hs : WindowLaw s) : WindowLaw t := by
  cases h with
  | forget es hsub => exact ⟨hsub.length_le.trans hs.1, hs.2.sublist (hsub.map _)⟩
  | insert e => exact ⟨insertWindow_length e _ hs.1, insertWindow_nodup e hs.2⟩
  | halt | softRestart | releaseRstn => exact ⟨Nat.zero_le _, List.nodup_nil⟩
  | _ => exact hs

/-! ### Sizes (R49, R82, R113, R114, R130, R163, R167) -/

theorem AccCache.line_reset (i : Fin 64) : AccCache.reset.line i = Line.empty := by
  simp [AccCache.line, AccCache.reset]

theorem State.line_setUpLine (s : State) (i j : Fin 64) (backing : Addr) (pending : List PendingOp) (cause : Origin) :
    (s.setUpLine i backing pending cause).line j = if i = j then
      { Line.empty with state := .filling, backing := backing, pending := pending, cause := cause } else s.line j :=
  AccCache.line_setLine s.acc i j _

theorem State.Change.sizes (h : State.Change E s t) (hs : Sizes s) : Sizes t := by
  obtain ⟨hintake, hreads, hwindows, hpending, hqueue, hacks, hbuffer⟩ := hs
  have hempty (i : Fin 64) : (AccCache.reset.line i).pending.length ≤ 8 := by simp [AccCache.line_reset, Line.empty]
  cases h with
  | upstream b hi hr => exact ⟨hi hintake, hr hreads, hwindows, hpending, hqueue, hacks, hbuffer⟩
  | forget es hsub => exact ⟨hintake, hreads, hsub.length_le.trans hwindows, hpending, hqueue, hacks, hbuffer⟩
  | insert e => exact ⟨hintake, hreads, insertWindow_length e _ hwindows, hpending, hqueue, hacks, hbuffer⟩
  | cache c hc => exact ⟨hintake, hreads, hwindows, fun i => (hc.line i).room (hpending i), hqueue, hacks, hbuffer⟩
  | allocate i backing pending cause _ hlen =>
    refine ⟨hintake, hreads, hwindows, fun j => ?_, hqueue, hacks, hbuffer⟩
    rw [State.line_setUpLine]
    split <;> [exact hlen; exact hpending j]
  | ring r _ hlen => exact ⟨hintake, hreads, hwindows, hpending, hlen hqueue, hacks, hbuffer⟩
  | monitor c hc => exact ⟨hintake, hreads, hwindows, hpending, hqueue, hc.acks hacks, hbuffer⟩
  | halt => exact ⟨hintake, hreads, Nat.zero_le _, hpending, hqueue, hacks, hbuffer⟩
  | link l hl => exact ⟨hintake, hreads, hwindows, hpending, hqueue, hacks, hl hbuffer⟩
  | softRestart =>
    refine ⟨Nat.zero_le _, ?_, Nat.zero_le _, hempty, Nat.zero_le _, ?_, hbuffer⟩
    · simpa [State.softRestart, UpstreamPort.softRestart] using hreads
    · simp [State.softRestart, ControlMonitor.reset, Mirror.reset]
  | releaseRstn =>
    refine ⟨Nat.zero_le _, Nat.zero_le _, Nat.zero_le _, hempty, Nat.zero_le _, ?_, Nat.zero_le _⟩
    simp [State.releaseRstn, ControlMonitor.reset, Mirror.reset]
  | _ => exact ⟨hintake, hreads, hwindows, hpending, hqueue, hacks, hbuffer⟩

/-! ### The lines (R82, R83) -/

theorem lineLaw_of_allFree (hline : ∀ i, s.line i = Line.empty) (horder : s.acc.order = []) : LineLaw s := by
  simp [LineLaw, hline, horder, Line.empty]

theorem State.Change.lineLaw (h : State.Change E s t) (hs : LineLaw s) : LineLaw t := by
  cases h with
  | cache c hc =>
    obtain ⟨hone, hpending, hroom, horder⟩ := hs
    have horder' : c.OrderLaw := hc.order horder
    refine ⟨fun i j hi hj hb => ?_, fun i => (hc.line i).pending (hpending i), fun i => (hc.line i).room (hroom i),
      horder'⟩
    obtain ⟨hui, hbi⟩ := (hc.line i).counter hi
    obtain ⟨huj, hbj⟩ := (hc.line j).counter hj
    exact hone i j hui huj (hbi.symm.trans (hb.trans hbj))
  | allocate i backing pending cause _ hlen hnew =>
    obtain ⟨hone, hpending, hroom, hnodup, hmem⟩ := hs
    simp only [LineLaw, State.line_setUpLine]
    refine ⟨fun j k => ?_, fun j => ?_, fun j => ?_, ?_, fun j => ?_⟩
    · rcases eq_or_ne i j with rfl | hj <;> rcases eq_or_ne i k with rfl | hk
      · exact fun _ _ _ => rfl
      · simp only [if_true, if_neg hk]; exact fun _ hu hb => absurd hb.symm (hnew k hu)
      · simp only [if_true, if_neg hj]; exact fun hu _ hb => absurd hb (hnew j hu)
      · simp only [if_neg hj, if_neg hk]; exact hone j k
    · split <;> [exact fun _ => rfl; exact hpending j]
    · split <;> [exact hlen; exact hroom j]
    · exact List.nodup_append.2 ⟨hnodup.filter _, by simp, by simp⟩
    · show j ∈ s.acc.order.filter (· ≠ i) ++ [i] ↔ _
      by_cases hj : i = j
      · simp [hj]
      · simp [hj, Ne.symm hj, hmem]
  | softRestart => exact lineLaw_of_allFree AccCache.line_reset rfl
  | releaseRstn => exact lineLaw_of_allFree AccCache.line_reset rfl
  | _ => exact hs

/-! ### The ring (R131, R132) -/

theorem ringLaw_reset : RingLaw RingWriter.reset := by decide

theorem State.Change.ringLaw (h : State.Change E s t) (hs : RingLaw s.ring) : RingLaw t.ring := by
  cases h with
  | ring r hlaw => exact hlaw hs
  | softRestart => exact ringLaw_reset
  | releaseRstn => exact ringLaw_reset
  | _ => exact hs

/-! ### The fatal cause (R147, R161) -/

theorem State.Change.fatalLaw (h : State.Change E s t) (hs : FatalLaw s) : FatalLaw t := by
  obtain ⟨hcause, hfatal⟩ := hs
  cases h with
  | monitor c hc =>
    simp only [FatalLaw, State.withCm_cm, hc.mode, hc.fatalCause, hc.fatal]
    exact ⟨hcause, hfatal⟩
  | beginDraining _ hm => simp_all [FatalLaw, State.setMode]
  | activate _ hm => simp_all [FatalLaw, State.setMode]
  | halt => simp [FatalLaw, State.modeHalted, State.setMode, State.setFatal, State.setFlags, State.dropDrainStart]
  | release => simp [FatalLaw, State.setMode, State.setFatal, State.setFlags]
  | softRestart => simp [FatalLaw, State.softRestart, ControlMonitor.reset, StickyFlags.clear]
  | releaseRstn => simp [FatalLaw, State.releaseRstn, ControlMonitor.reset, StickyFlags.clear]
  | _ => exact ⟨hcause, hfatal⟩

/-! ### The slots (R123) -/

/-- The slots and the issue order change only with the Downstream Port's own steps, and at a reset. -/
theorem State.Change.slots (h : State.Change E s t) (hp : .port ∉ E) (hr : .reset ∉ E) :
    t.down.slots = s.down.slots ∧ t.down.issueOrder = s.down.issueOrder := by
  cases h with
  | port d hd => exact hd.resolve_left hp
  | softRestart hE => exact absurd hE hr
  | releaseRstn hE => exact absurd hE hr
  | _ => exact ⟨rfl, rfl⟩

theorem State.Reaches.slots (h : s.Reaches E t) (hp : .port ∉ E) (hr : .reset ∉ E) :
    t.down.slots = s.down.slots ∧ t.down.issueOrder = s.down.issueOrder :=
  h.keeps (P := fun u => u.down.slots = s.down.slots ∧ u.down.issueOrder = s.down.issueOrder)
    (fun _ _ hc hu => ⟨(hc.slots hp hr).1.trans hu.1, (hc.slots hp hr).2.trans hu.2⟩) ⟨rfl, rfl⟩

/-- The first two parts of the law of the slots, which hold between the completions of one response too: the issue order
lists the WAITING and HELD slots once each. -/
def DownPort.Listed (d : DownPort) : Prop :=
  d.issueOrder.Nodup ∧ ∀ i, i ∈ d.issueOrder ↔ (d.slot i).state.issued = true

/-- The oldest slot in issue order is WAITING. -/
def DownPort.OldestWaits (d : DownPort) : Prop := ∀ i ∈ d.issueOrder.head?, (d.slot i).state.isWaiting = true

theorem slotLaw_iff : SlotLaw s ↔ s.down.Listed ∧ s.down.OldestWaits := and_assoc.symm

theorem DownPort.Listed.congr {d e : DownPort} (h : d.Listed) (hs : e.slots = d.slots)
    (ho : e.issueOrder = d.issueOrder) : e.Listed := by
  have hslot (i : Fin 8) : e.slot i = d.slot i := DownPort.slot_congr hs i
  simpa only [DownPort.Listed, hslot, ho] using h

theorem slotLaw_congr (h : SlotLaw s) (hs : t.down.slots = s.down.slots)
    (ho : t.down.issueOrder = s.down.issueOrder) : SlotLaw t := by
  have hslot (i : Fin 8) : t.down.slot i = s.down.slot i := DownPort.slot_congr hs i
  simpa only [SlotLaw, hslot, ho] using h

/-- A slot that stays issued, or stays not issued, and stays WAITING where it is the oldest. -/
theorem slotLaw_setSlot (h : SlotLaw s) {i : Fin 8} {x : Slot} (hd : t.down = s.down.setSlot i x)
    (hx : x.state.issued = (s.down.slot i).state.issued)
    (hw : s.down.issueOrder.head? = some i → x.state.isWaiting = true) : SlotLaw t := by
  obtain ⟨hnodup, hmem, hhead⟩ := h
  have hslot (j : Fin 8) : (s.down.setSlot i x).slot j = if i = j then x else s.down.slot j := by simp
  refine ⟨hd ▸ hnodup, fun j => ?_, fun j hj => ?_⟩
  · rw [hd, hslot]
    split
    · rename_i hij; rw [hx, hij]; exact hmem j
    · exact hmem j
  · rw [hd] at hj ⊢
    rw [hslot]
    split
    · rename_i hij; exact hw (hij ▸ hj)
    · exact hhead j hj

/-- The oldest slot completes, FREE or STALE after it. -/
theorem DownPort.Listed.completeOldest {i : Fin 8} {rest : List (Fin 8)} (h : s.down.Listed)
    (ho : s.down.issueOrder = i :: rest) {x : SlotState} (hx : x.issued = false) (p : Purpose) (st : Status)
    (data : Payload) : (s.completeOldest i x p st data).down.Listed := by
  obtain ⟨hnodup, hmem⟩ := h
  rw [ho] at hnodup
  obtain ⟨hi, hrest⟩ := List.nodup_cons.1 hnodup
  have hport := State.complete_port ((s.setSlotState i x).withDown
    { (s.setSlotState i x).down with issueOrder := (s.setSlotState i x).down.issueOrder.tail }) p st data
  have hself : (s.completeOldest i x p st data).down.slot i = { s.down.slot i with state := x } := by
    rw [State.completeOldest, DownPort.slot_congr hport.1]
    show (s.down.setSlot i _).slot i = _
    simp
  refine ⟨?_, fun j => ?_⟩
  · rw [State.completeOldest_order, ho]; exact hrest
  · rw [State.completeOldest_order, ho, List.tail_cons]
    rcases eq_or_ne i j with rfl | hij
    · rw [hself]; simp [hi, hx]
    · rw [State.completeOldest_slot s x p st data hij, ← hmem j, ho]; simp [Ne.symm hij]

/-- The HELD slots that have become the oldest complete, and the oldest that is left is WAITING. -/
theorem State.deliverHeld_slotLaw (n : Nat) (s : State) (h : s.down.Listed) (hn : s.down.issueOrder.length ≤ n) :
    SlotLaw (s.deliverHeld n) := by
  induction n generalizing s with
  | zero =>
    have ho : s.down.issueOrder = [] := List.length_eq_zero_iff.1 (Nat.le_zero.1 hn)
    exact slotLaw_iff.2 ⟨h, by simp [State.deliverHeld, DownPort.OldestWaits, ho]⟩
  | succ n ih =>
    unfold State.deliverHeld
    split
    · rename_i ho
      exact slotLaw_iff.2 ⟨h, by simp [DownPort.OldestWaits, ho]⟩
    · rename_i i rest ho
      have hi := (h.2 i).1 (by simp [ho])
      split
      · refine ih _ (h.completeOldest ho rfl _ _ _) ?_
        rw [State.completeOldest_order, ho]
        simpa [ho] using hn
      · rename_i hs; rw [hs] at hi; cases hi
      · rename_i hs
        exact slotLaw_iff.2 ⟨h, fun j hj => by rw [ho] at hj; cases hj; simp [hs, SlotState.isWaiting]⟩
      · rename_i hs; rw [hs] at hi; cases hi

/-- The oldest slot completes and the HELD slots behind it follow. -/
theorem State.completeOldest_slotLaw (h : SlotLaw s) {i : Fin 8} (ho : s.down.isOldest i = true) {x : SlotState}
    (hx : x.issued = false) (p : Purpose) (st : Status) (data : Payload) :
    SlotLaw ((s.completeOldest i x p st data).deliverHeld 8) := by
  have hhead : s.down.issueOrder.head? = some i := by simpa [DownPort.isOldest] using ho
  obtain ⟨rest, ho⟩ := List.head?_eq_some_iff.1 hhead
  refine State.deliverHeld_slotLaw 8 _ ((slotLaw_iff.1 h).1.completeOldest ho hx p st data) ?_
  rw [State.completeOldest_order, List.length_tail]
  exact (Nat.sub_le _ _).trans (by simpa using List.Nodup.length_le_card h.1)

theorem State.respond_slotLaw (i : Fin 8) (st : Status) (data : Payload) (h : SlotLaw s) :
    SlotLaw (s.respond i st data) := by
  simp only [State.respond]
  split
  · exact slotLaw_setSlot h rfl rfl fun hh => h.2.2 i hh
  · split
    · rename_i hs
      split
      · rename_i ho; exact State.completeOldest_slotLaw h ho rfl _ _ _
      · rename_i ho
        exact slotLaw_setSlot h rfl (by simp [hs, SlotState.issued])
          fun hh => absurd (by simpa [DownPort.isOldest] using hh) ho
    · rename_i hs
      refine slotLaw_setSlot h rfl (by simp [hs, SlotState.issued]) fun hh => ?_
      have := h.2.2 i hh
      rw [hs] at this; cases this
    all_goals exact h

theorem State.expire_slotLaw (i : Fin 8) (h : SlotLaw s) : SlotLaw (s.expire i) := by
  unfold State.expire
  split
  · split
    · rename_i ho; exact State.completeOldest_slotLaw h ho rfl _ _ _
    · exact h
  all_goals exact h

theorem State.endStale_slotLaw (i : Fin 8) (h : SlotLaw s) : SlotLaw (s.endStale i) := by
  unfold State.endStale
  split
  · rename_i hs
    refine slotLaw_setSlot h rfl (by simp [hs, SlotState.issued]) fun hh => ?_
    have := h.2.2 i hh
    rw [hs] at this; cases this
  all_goals exact h

/-- A request is issued into a FREE slot, as the youngest (R123). -/
theorem State.grant_slotLaw (h : SlotLaw s) : SlotLaw s.grant := by
  unfold State.grant
  split
  · rename_i i who hfree hwho
    split
    · rename_i q p hq
      obtain ⟨hnodup, hmem, hhead⟩ := h
      have hs : (s.down.slot i).state = .free := by simpa using List.find?_some hfree
      have hnew : i ∉ s.down.issueOrder := fun hi => by rw [hmem i, hs] at hi; cases hi
      have hport := (State.requesterIssued_reaches (E := []) (s.withDown
        { s.down.setSlot i { s.down.slot i with state := .waiting q p } with
          issueOrder := s.down.issueOrder ++ [i], lastGranted := who }) q p).slots (by simp) (by simp)
      refine slotLaw_congr (t := s.issueInto i who q p) (s := s.withDown _) ?_ hport.1 hport.2
      have hslot (j : Fin 8) : DownPort.slot
          { s.down.setSlot i { s.down.slot i with state := .waiting q p } with
            issueOrder := s.down.issueOrder ++ [i], lastGranted := who } j
          = if i = j then { s.down.slot i with state := .waiting q p } else s.down.slot j :=
        DownPort.slot_setSlot s.down i j _
      refine ⟨List.nodup_append.2 ⟨hnodup, by simp, by simpa using fun a ha => ne_of_mem_of_not_mem ha hnew⟩,
        fun j => ?_,
        fun j hj => ?_⟩
      · rw [State.withDown_down, hslot, List.mem_append, hmem j]
        rcases eq_or_ne i j with rfl | hij
        · simp [SlotState.issued]
        · simp [hij, Ne.symm hij]
      · rw [State.withDown_down, hslot]
        split
        · rfl
        · rename_i hij
          refine hhead j ?_
          cases ho : s.down.issueOrder with
          | nil => simp [ho] at hj; exact absurd hj hij
          | cons a as => simpa [ho] using hj
    · exact h
  · exact h

theorem SlotState.abandon_issued (counting : Bool) (x : Slot) : (x.abandon counting).state.issued = false := by
  unfold Slot.abandon; split <;> simp_all [SlotState.issued]

theorem slotLaw_of_abandon (counting : Bool) (h : t.down = s.down.abandon counting) : SlotLaw t := by
  have hslot (i : Fin 8) : t.down.slot i = (s.down.slot i).abandon counting := by
    rw [h]; exact DownPort.slot_mapSlots s.down _ i
  have ho : t.down.issueOrder = [] := by rw [h]; rfl
  refine ⟨by simp [ho], fun i => ?_, by simp [ho]⟩
  rw [hslot, SlotState.abandon_issued]; simp [ho]

theorem State.releaseRstn_slotLaw (cbsel : BitVec 3) (mlrate : BitVec 2) (h : SlotLaw s) :
    SlotLaw (s.releaseRstn cbsel mlrate) := by
  obtain ⟨hnodup, hmem, hhead⟩ := h
  have hslot (i : Fin 8) : (s.releaseRstn cbsel mlrate).down.slot i = (s.down.slot i).beginStale :=
    DownPort.slot_mapSlots s.down _ i
  have hstate (x : Slot) :
      x.beginStale.state.issued = x.state.issued ∧ x.beginStale.state.isWaiting = x.state.isWaiting := by
    unfold Slot.beginStale; split <;> simp_all [SlotState.issued, SlotState.isWaiting]
  refine ⟨hnodup, fun i => ?_, fun i hi => ?_⟩
  · rw [hslot, (hstate _).1]; exact hmem i
  · rw [hslot, (hstate _).2]; exact hhead i hi

theorem State.takeWords_slotLaw (ws : List ControlWord) (h : SlotLaw s) : SlotLaw (s.takeWords ws) := by
  have hd : (s.takeWords ws).down = s.down := (State.takeWords_frame ws s).2.2.2.1
  exact slotLaw_congr h (by rw [hd]) (by rw [hd])

theorem State.afterWords_slotLaw {act : State → State} (hact : ∀ u, SlotLaw u → SlotLaw (act u)) (h : SlotLaw s) :
    SlotLaw (s.afterWords act) := by
  unfold State.afterWords
  split <;> [exact hact _ h; exact hact _ (State.takeWords_slotLaw _ h)]

/-- The commands that change no slot, and the others one by one. -/
theorem exec_slotLaw {c : Instr} (h : exec c s = .next t) (hs : SlotLaw s) : SlotLaw t := by
  by_cases hslots : .port ∈ eventsOf c ∨ .reset ∈ eventsOf c
  · cases c with
    | arbiterGrant =>
      cases h
      refine State.afterWords_slotLaw (fun u hu => ?_) hs
      split <;> [exact hu; exact State.grant_slotLaw hu]
    | downstreamResponse slot st data =>
      cases h
      exact State.afterWords_slotLaw (fun u hu => State.respond_slotLaw _ _ _ hu) hs
    | responseTimerExpiry slot =>
      cases h
      refine State.afterWords_slotLaw (fun u hu => ?_) hs
      split <;> [exact hu; exact State.expire_slotLaw _ hu]
    | stalePeriodExpiry slot => cases h; exact State.endStale_slotLaw _ hs
    | responseSent =>
      cases h
      split
      · exact hs
      · unfold State.responseDone
        split
        · simp only
          split <;> [exact slotLaw_of_abandon (s := s) true rfl; exact hs]
        · exact hs
    | rstnAssert =>
      cases h
      refine State.afterWords_slotLaw (fun u hu => ?_) hs
      split <;> [exact hu; exact slotLaw_of_abandon (s := u) false rfl]
    | rstnRelease cbsel mlrate =>
      cases h
      split <;> [exact State.releaseRstn_slotLaw _ _ hs; exact hs]
    | _ => simp [eventsOf] at hslots
  · rw [not_or] at hslots
    obtain ⟨u, hu, ht⟩ := State.exec_reaches h
    have hwords := hu.slots (by simp) (by simp)
    have hown := ht.slots hslots.1 hslots.2
    exact slotLaw_congr hs (hown.1.trans hwords.1) (hown.2.trans hwords.2)

/-! ### The modes (R79, R108, R117, R147 to R150) -/

/-- The mode or the way to BYPASS in which nothing may be on its way to the Accumulator Cache. -/
abbrev State.shut (s : State) : Prop := s.cm.mode = .bypass ∨ s.cm.mode = .halted ∨ s.drainBegun

theorem Mode.mayLeave_releasing {m : Mode} (h : m.mayLeave .releasing = true) : m = .draining ∨ m = .halted := by
  revert h; cases m <;> simp [Mode.mayLeave]

theorem Mode.mayLeave_bypass {l : Leaving} (h : Mode.mayLeave .bypass l = true) : l = .stay := by
  revert h; cases l <;> simp [Mode.mayLeave]

theorem Mode.mayLeave_active {l : Leaving} (h : Mode.mayLeave .active l = true) : l = .stay := by
  revert h; cases l <;> simp [Mode.mayLeave]

/-- While the release is awaited nothing may be on its way to the cache. -/
theorem ModeLaw.shut_of_releasing (h : ModeLaw s) (hl : s.cm.leaving = .releasing) : s.shut := by
  obtain ⟨hleave, -⟩ := h
  rcases Mode.mayLeave_releasing (hl ▸ hleave) with hm | hm
  · exact .inr (.inr ⟨hm, .inr hl⟩)
  · exact .inr (.inl hm)

/-- A request that may be on its way to the cache finds it open. -/
theorem ModeLaw.open_of_mayHand (h : ModeLaw s) (hh : s.mayHand E) : ¬ s.shut := by
  obtain ⟨-, -, -, hhanding, hwalking, -⟩ := h
  rintro hshut
  obtain ⟨-, hm⟩ | ⟨hm, k, hk, hw⟩ | ⟨k, hk, hw⟩ := hh
  · rcases hshut with hb | hb | hb <;> simp_all [State.drainBegun]
  · rcases hshut with hb | hb | hb
    · simp_all
    · simp_all
    · rw [hwalking hb k hk] at hw; cases hw
  · rw [hhanding hshut k hk] at hw; cases hw

theorem modeLaw_of_reset (hm : s.cm.mode = .bypass) (hl : s.cm.leaving = .stay) (hh : s.cm.hold = none)
    (hline : ∀ i, s.line i = Line.empty) (hw : s.windows = []) (hp : s.path = none) : ModeLaw s := by
  simp [ModeLaw, hm, hl, hh, hline, hw, hp, Mode.mayLeave, Line.empty]

/-- The law of the modes reads the mode, the way to BYPASS, the hold, which lines are FREE, whether the Window Cache is
empty, and what the path holds. -/
theorem ModeLaw.congr (h : ModeLaw s) (hm : t.cm.mode = s.cm.mode) (hl : t.cm.leaving = s.cm.leaving)
    (hh : t.cm.hold.isSome = true → s.cm.hold.isSome = true ∨ t.path = none) (hp : t.path = none ∨ t.path = s.path)
    (hw : s.shut → s.windows = [] → t.windows = [])
    (hf : s.shut → ∀ i, (s.line i).state = .free → (t.line i).state = .free) : ModeLaw t := by
  have hshut : t.shut ↔ s.shut := by simp only [State.shut, State.drainBegun, hm, hl]
  have hbegun : t.drainBegun ↔ s.drainBegun := by simp only [State.drainBegun, hm, hl]
  have hpath (k : Held) (hk : k ∈ t.path) : k ∈ s.path := by
    rcases hp with hp | hp
    · rw [hp] at hk; cases hk
    · exact hp ▸ hk
  have hrel := h.shut_of_releasing
  obtain ⟨hleave, hfree, hwindows, hhanding, hwalking, hhold⟩ := h
  refine ⟨by rwa [hm, hl], fun hb i => ?_, fun hb => ?_, fun hb k hk => ?_, fun hb k hk => ?_, fun hb => ?_⟩
  · rw [hm, hl] at hb
    exact hf (hb.elim .inl hrel) i (hfree hb i)
  · exact hw (hshut.1 hb) (hwindows (hshut.1 hb))
  · exact hhanding (hshut.1 hb) k (hpath k hk)
  · exact hwalking (hbegun.1 hb) k (hpath k hk)
  · rcases hh hb with hs | hn
    · exact hp.elim id fun hp => hp.trans (hhold hs)
    · exact hn

theorem State.Change.modeLaw (h : State.Change E s t) (hs : ModeLaw s) : ModeLaw t := by
  have hopen := hs.open_of_mayHand (E := E)
  cases h with
  | upstream | walker | port | ring | link | pins | tick => exact hs
  | finish => exact hs.congr rfl rfl .inl (.inl rfl) (fun _ => id) fun _ _ => id
  | forget es hsub =>
    exact hs.congr rfl rfl .inl (.inr rfl) (fun _ hn => List.eq_nil_of_subset_nil (hn ▸ hsub.subset)) fun _ _ => id
  | cache c hc =>
    refine hs.congr rfl rfl .inl (.inr rfl) (fun _ => id) fun _ i hi => ?_
    by_contra hne
    exact ((hc.line i).counter hne).1 hi
  | monitor c hc =>
    refine hs.congr hc.mode hc.leaving (fun hh => ?_) (.inr rfl) (fun _ => id) fun _ _ => id
    obtain hn | he | hp := hc.hold
    · rw [State.withCm_cm, hn] at hh; cases hh
    · exact .inl (by rwa [State.withCm_cm, he] at hh)
    · exact .inr hp
  | insert e hguard =>
    refine hs.congr rfl rfl .inl (.inr rfl) (fun hshut hn => ?_) fun _ _ => id
    exact absurd hn (hguard.elim id fun hh => absurd hshut (hopen hh))
  | allocate i backing pending cause hh =>
    exact hs.congr rfl rfl .inl (.inr rfl) (fun _ => id) fun hshut => absurd hshut (hopen hh)
  | keep k hkeep hhand =>
    obtain ⟨hleave, hfree, hwindows, -, hwalking, hhold⟩ := hs
    refine ⟨hleave, hfree, hwindows, fun hb j hj => ?_, fun hb j hj => ?_, fun hb => ?_⟩
    · cases hj; exact Bool.eq_false_iff.2 fun hk => hopen (hhand (.inl hk)) hb
    · cases hj; exact Bool.eq_false_iff.2 fun hk => hopen (hhand (.inr hk)) (.inr (.inr hb))
    · rcases hkeep with hp | ⟨-, hn⟩
      · exact absurd (hhold hb) hp
      · rw [State.withPath_cm, hn] at hb; cases hb
  | beginDraining _ hm =>
    obtain ⟨-, -, -, -, -, hhold⟩ := hs
    simpa [ModeLaw, State.setMode, Mode.mayLeave, State.drainBegun] using hhold
  | activate _ hm hh =>
    obtain ⟨hleave, -, -, -, -, hhold⟩ := hs
    have hstay := Mode.mayLeave_bypass (hm ▸ hleave)
    simpa [ModeLaw, State.setMode, Mode.mayLeave, State.drainBegun, hstay] using hhold
  | halt _ hm hl hp =>
    obtain ⟨-, -, -, -, -, hhold⟩ := hs
    simp only [ModeLaw, State.modeHalted, State.setMode, State.setFatal, State.setFlags, State.dropDrainStart]
    refine ⟨rfl, by simp, by simp, fun _ => by simpa using hp, by simp [State.drainBegun], fun hb => ?_⟩
    refine hhold ?_
    revert hb
    simp only [State.withCm_cm, State.withWindows_cm]
    by_cases hd : s.cm.hold = some .drainStart <;> simp [hd]
  | beginDrain _ hh hl hw =>
    obtain ⟨hleave, -, -, -, -, hhold⟩ := hs
    have hm : s.cm.mode = .draining := by revert hleave; rw [hl]; cases s.cm.mode <;> simp [Mode.mayLeave]
    have hp := hhold hh
    simp [ModeLaw, Mode.mayLeave, hm, hw, hp]
  | beginDiscard hm =>
    obtain ⟨hleave, hfree, hwindows, hhanding, -, hhold⟩ := hs
    refine ⟨by simp [hm, Mode.mayLeave], by simp [hm], fun _ => hwindows (.inr (.inl hm)),
      fun _ => hhanding (.inr (.inl hm)),
      by simp [State.drainBegun, hm], hhold⟩
  | awaitRelease hl hf =>
    obtain ⟨hleave, -, hwindows, hhanding, hwalking, hhold⟩ := hs
    have hm : s.cm.mode = .draining ∧ s.cm.leaving = .draining ∨ s.cm.mode = .halted := by
      revert hleave; rcases hl with hl | hl <;> rw [hl] <;> cases s.cm.mode <;> simp [Mode.mayLeave]
    have hshut : s.shut := hm.elim (fun h => .inr (.inr ⟨h.1, .inl h.2⟩)) fun h => .inr (.inl h)
    refine ⟨?_, fun _ => hf, fun _ => hwindows hshut, fun _ => hhanding hshut, fun hb => ?_, hhold⟩
    · rcases hm with ⟨hm, -⟩ | hm <;> simp [hm, Mode.mayLeave]
    · rcases hm with hm | hm
      · exact hwalking ⟨hm.1, .inl hm.2⟩
      · exact absurd hb.1 (by simp [hm])
  | release _ hl =>
    have hshut := hs.shut_of_releasing hl
    obtain ⟨-, hfree, hwindows, hhanding, -, hhold⟩ := hs
    refine ⟨rfl, fun _ => hfree (.inr hl), fun _ => hwindows hshut, fun _ => hhanding hshut, ?_, hhold⟩
    simp [State.drainBegun, State.setFatal, State.setFlags, State.setMode]
  | softRestart => exact modeLaw_of_reset rfl rfl rfl AccCache.line_reset rfl rfl
  | releaseRstn => exact modeLaw_of_reset rfl rfl rfl AccCache.line_reset rfl rfl

/-! ### The transitions of the mode (R147) -/

/-- What an elementary change does to the mode. -/
theorem State.Change.mode_cases (h : State.Change E s t) :
    t.cm.mode = s.cm.mode ∨
    (.beginDraining ∈ E ∧ s.cm.mode = .active ∧ t.cm.mode = .draining ∧ t.cm.leaving = .starting) ∨
    (.activate ∈ E ∧ s.cm.mode = .bypass ∧ t.cm.mode = .active ∧ s.cm.hold.isSome = true ∧ t.path = s.path ∧
      t.acc = s.acc) ∨
    (.halt ∈ E ∧ (s.cm.mode = .active ∨ s.cm.mode = .draining) ∧ t.cm.mode = .halted ∧ ∃ i, (s.line i).inUse) ∨
    (.release ∈ E ∧ s.cm.leaving = .releasing ∧ t.cm.mode = .bypass) ∨
    (.reset ∈ E ∧ t.cm.mode = .bypass) := by
  cases h with
  | monitor c hc => exact .inl hc.mode
  | beginDraining hE hm => exact .inr (.inl ⟨hE, hm, rfl, rfl⟩)
  | activate hE hm hh => exact .inr (.inr (.inl ⟨hE, hm, rfl, hh, rfl, rfl⟩))
  | halt hE hm hl => exact .inr (.inr (.inr (.inl ⟨hE, hm, rfl, hl⟩)))
  | release hE hl => exact .inr (.inr (.inr (.inr (.inl ⟨hE, hl, rfl⟩))))
  | softRestart hE => exact .inr (.inr (.inr (.inr (.inr ⟨hE, rfl⟩))))
  | releaseRstn hE => exact .inr (.inr (.inr (.inr (.inr ⟨hE, rfl⟩))))
  | _ => exact .inl rfl

/-- With no request held and every line FREE, nothing comes into use but by a request that is taken. -/
theorem State.Change.stays_empty (h : State.Change E s t) (hE : .takeRequest ∉ E) (hp : s.path = none)
    (hf : ∀ i, (s.line i).state = .free) : t.path = none ∧ ∀ i, (t.line i).state = .free := by
  have hhand : ¬ s.mayHand E := by simp [State.mayHand, hE, hp]
  cases h with
  | finish => exact ⟨rfl, hf⟩
  | keep k hkeep => simp [State.mayKeep, hE, hp] at hkeep
  | cache c hc => exact ⟨hp, fun i => by_contra fun hne => ((hc.line i).counter hne).1 (hf i)⟩
  | allocate _ _ _ _ hh => exact absurd hh hhand
  | softRestart => exact ⟨rfl, fun i => by rw [State.line]; exact congrArg _ (AccCache.line_reset i)⟩
  | releaseRstn => exact ⟨rfl, fun i => by rw [State.line]; exact congrArg _ (AccCache.line_reset i)⟩
  | _ => exact ⟨hp, hf⟩

/-- While the hold DRAIN_START is awaited only DRAIN_BEGIN goes on towards the release. -/
theorem State.Change.stays_starting (h : State.Change E s t) (hE : .beginDrain ∉ E) (hm : s.cm.mode = .draining)
    (hl : s.cm.leaving = .starting) (hm' : t.cm.mode = .draining) : t.cm.leaving = .starting := by
  cases h with
  | monitor c hc => exact hc.leaving.trans hl
  | beginDraining => rfl
  | beginDrain hE' => exact absurd hE' hE
  | beginDiscard hh => rw [hm] at hh; cases hh
  | awaitRelease hl' => rw [hl] at hl'; simp at hl'
  | halt | activate | release | softRestart | releaseRstn => cases hm'
  | _ => exact hl

/-- The words that wait make no change of the mode but from ACTIVE to DRAINING. -/
theorem State.Reaches.mode_of_words (h : s.Reaches [.beginDraining] t) :
    t.cm.mode = s.cm.mode ∨ s.cm.mode = .active ∧ t.cm.mode = .draining ∧ t.cm.leaving = .starting := by
  refine h.keeps (P := fun u => u.cm.mode = s.cm.mode ∨
    s.cm.mode = .active ∧ u.cm.mode = .draining ∧ u.cm.leaving = .starting) (fun u v hc hu => ?_) (.inl rfl)
  have hstarting := hc.stays_starting (by simp)
  have hcases := hc.mode_cases
  simp only [List.mem_singleton, reduceCtorEq, false_and, or_false, true_and] at hcases
  obtain hu | ⟨hs, hu, hl⟩ := hu <;> obtain hv | ⟨ha, hv, hl'⟩ := hcases
  · exact .inl (hv.trans hu)
  · exact .inr ⟨hu.symm.trans ha, hv, hl'⟩
  · exact .inr ⟨hs, hv.trans hu, hstarting hu hl (hv.trans hu)⟩
  · exact .inr ⟨hs, hv, hl'⟩

/-- The events of one command's own step, other than a reset, that the transitions rest on: a response or an expiry,
which may activate or halt, takes no request and releases no ring. -/
structure Event.Apart (E : List Event) : Prop where
  reset : .reset ∉ E
  words : .beginDraining ∉ E
  activate : .activate ∈ E → .takeRequest ∉ E ∧ .release ∉ E
  halt : .halt ∈ E → .release ∉ E
  release : .release ∈ E → .beginDrain ∉ E

/-- Where a step that began in a mode may stand. -/
def State.SinceMode (E : List Event) (m : Mode) (u : State) : Prop :=
  match m with
  | .bypass => u.cm.mode = .bypass ∨
      u.cm.mode = .active ∧ .activate ∈ E ∧ u.path = none ∧ ∀ i, (u.line i).state = .free
  | .active => u.cm.mode = .active ∨ u.cm.mode = .draining ∧ (.release ∈ E → u.cm.leaving = .starting) ∨
      u.cm.mode = .halted ∧ .release ∉ E
  | .draining => u.cm.mode = .draining ∨ u.cm.mode = .halted ∨ u.cm.mode = .bypass ∧ .activate ∉ E
  | .halted => u.cm.mode = .halted ∨ u.cm.mode = .bypass ∧ .activate ∉ E

theorem State.SinceMode.change {m : Mode} (hE : Event.Apart E) (h : State.Change E s t) (hlaw : ModeLaw s)
    (hs : s.SinceMode E m) : t.SinceMode E m := by
  have hrelease : s.cm.leaving = .releasing → s.cm.mode = .draining ∨ s.cm.mode = .halted := fun hl =>
    Mode.mayLeave_releasing (hl ▸ hlaw.1)
  have hcases := h.mode_cases
  simp only [hE.reset, hE.words, false_and, false_or, or_false] at hcases
  obtain hsame | ⟨ha, hs', ht, hh, hpath, hacc⟩ | ⟨ha, hs', ht, i, hi⟩ | ⟨ha, hl, ht⟩ := hcases
  · cases m with
    | bypass =>
      obtain hu | ⟨hu, ha, hp, hf⟩ := hs
      · exact .inl (hsame.trans hu)
      · exact .inr ⟨hsame.trans hu, ha, h.stays_empty (hE.activate ha).1 hp hf⟩
    | active =>
      obtain hu | ⟨hu, hl⟩ | ⟨hu, hr⟩ := hs
      · exact .inl (hsame.trans hu)
      · exact .inr (.inl ⟨hsame.trans hu, fun hr => h.stays_starting (hE.release hr) hu (hl hr) (hsame.trans hu)⟩)
      · exact .inr (.inr ⟨hsame.trans hu, hr⟩)
    | draining => simpa only [State.SinceMode, hsame] using hs
    | halted => simpa only [State.SinceMode, hsame] using hs
  · cases m with
    | bypass =>
      obtain ⟨-, hfree, -, -, -, hhold⟩ := hlaw
      refine .inr ⟨ht, ha, hpath.trans (hhold hh), fun i => ?_⟩
      rw [State.line, hacc]; exact hfree (.inl hs') i
    | active | draining | halted => simp [State.SinceMode, hs', ha] at hs
  · cases m with
    | bypass =>
      obtain hu | ⟨-, -, -, hf⟩ := hs
      · rw [hu] at hs'; simp at hs'
      · exact absurd (hf i) hi
    | active => exact .inr (.inr ⟨ht, hE.halt ha⟩)
    | draining => exact .inr (.inl ht)
    | halted => exact .inl ht
  · have hactivate : .activate ∉ E := fun hb => (hE.activate hb).2 ha
    cases m with
    | bypass => simp [State.SinceMode, hactivate] at hs; rcases hrelease hl with hm | hm <;> simp [hs] at hm
    | active =>
      obtain hu | ⟨hu, hst⟩ | ⟨hu, hr⟩ := hs
      · rcases hrelease hl with hm | hm <;> simp [hu] at hm
      · rw [hst ha] at hl; cases hl
      · exact absurd ha hr
    | draining => exact .inr (.inr ⟨ht, hactivate⟩)
    | halted => exact .inr ⟨ht, hactivate⟩

/-- A command is a reset, or its own step's events are apart. -/
theorem eventsOf_apart (c : Instr) : eventsOf c = [.reset] ∨ Event.Apart (eventsOf c) := by
  cases c with
  | responseSent | rstnRelease => exact .inl rfl
  | _ => exact .inr (by constructor <;> simp [eventsOf])

/-- The commands of a reset. -/
theorem reset_of_eventsOf {c : Instr} (h : eventsOf c = [.reset]) :
    c = .responseSent ∨ ∃ cbsel mlrate, c = .rstnRelease cbsel mlrate := by
  cases c <;> simp [eventsOf] at h ⊢

/-- A reset leaves the mode or makes it BYPASS. -/
theorem State.Reaches.mode_of_reset (h : s.Reaches [.reset] t) : t.cm.mode = s.cm.mode ∨ t.cm.mode = .bypass := by
  refine h.keeps (P := fun u => u.cm.mode = s.cm.mode ∨ u.cm.mode = .bypass) (fun u v hc hu => ?_) (.inl rfl)
  have hcases := hc.mode_cases
  simp only [List.mem_singleton, reduceCtorEq, false_and, false_or, true_and] at hcases
  exact hcases.elim (fun hv => hv ▸ hu) .inr

/-- A step's own changes, other than a reset, leave the mode where a step that began in its mode may stand. -/
theorem State.sinceMode_of_reaches {u : State} (hE : Event.Apart E) (hlaw : ModeLaw s)
    (hu : s.Reaches [.beginDraining] u)
    (ht : u.Reaches E t) : t.SinceMode E s.cm.mode := by
  have hlawu : ModeLaw u := hu.keeps (fun _ _ hc => hc.modeLaw) hlaw
  have hstart : u.SinceMode E s.cm.mode := by
    obtain hm | ⟨hs, hm, hl⟩ := hu.mode_of_words
    · cases hs : s.cm.mode <;> rw [hs] at hm <;> exact .inl hm
    · rw [hs]; exact .inr (.inl ⟨hm, fun _ => hl⟩)
  exact (ht.keeps (P := fun v => ModeLaw v ∧ v.SinceMode E s.cm.mode)
    (fun v w hc hv => ⟨hc.modeLaw hv.1, hv.2.change hE hc hv.1⟩) ⟨hlawu, hstart⟩).2

end

/-! ### The statements -/

/-- Settles O53: every elementary change keeps the sizes, and the law of the Window Cache. -/
theorem everyStepKeepsSizesAndTheWindowLaw : Obligations.EveryStepKeepsSizesAndTheWindowLaw :=
  ⟨fun _ _ => step_keeps (fun _ _ _ hc => hc.sizes) fun _ _ => id,
    fun _ _ => step_keeps (fun _ _ _ hc => hc.windowLaw) fun _ _ => id⟩

/-- Settles O54: every elementary change keeps the law of the lines. -/
theorem everyStepKeepsTheLineLaw : Obligations.EveryStepKeepsTheLineLaw :=
  fun _ _ => step_keeps (fun _ _ _ hc => hc.lineLaw) fun _ _ => id

/-- Settles O55: the port's own steps keep the law of the slots, and no other step changes a slot. -/
theorem everyStepKeepsTheSlotLaw : Obligations.EveryStepKeepsTheSlotLaw := by
  intro s t h hs
  unfold step at h
  split at h
  · cases h; exact hs
  · exact exec_slotLaw h hs

/-- Settles O56: every elementary change keeps the law of the ring. -/
theorem everyStepKeepsTheRingLaw : Obligations.EveryStepKeepsTheRingLaw :=
  fun _ _ => step_keeps (P := fun s => RingLaw s.ring) (fun _ _ _ hc => hc.ringLaw) fun _ _ => id

/-- Settles O57: every elementary change keeps the law of the fatal cause, and the law of the modes. -/
theorem everyStepKeepsTheModeLaws : Obligations.EveryStepKeepsTheModeLaws := fun _ _ h =>
  ⟨step_keeps (fun _ _ _ hc => hc.fatalLaw) (fun _ _ => id) h,
    step_keeps (fun _ _ _ hc => hc.modeLaw) (fun _ _ => id) h⟩

/-- Settles O58: a step stands where one that began in its mode may stand, or is a reset. -/
theorem modesChangeAsTheSpecSays : Obligations.ModesChangeAsTheSpecSays := by
  intro c s t h hlaw hne
  obtain ⟨u, hu, ht⟩ := State.exec_reaches h
  rcases eventsOf_apart c with hreset | hapart
  · have hc := reset_of_eventsOf hreset
    rw [hreset] at ht
    obtain hm | ⟨hs, hm, -⟩ := hu.mode_of_words
    · obtain hr | hr := ht.mode_of_reset
      · exact absurd (hr.trans hm) hne
      · simp [hr, hc]
    · obtain hr | hr := ht.mode_of_reset <;> simp [hr, hm, hs, hc]
  · have hsince := State.sinceMode_of_reaches hapart hlaw hu ht
    cases hs : s.cm.mode <;> rw [hs] at hsince hne <;> simp only [State.SinceMode] at hsince
    · obtain hb | ⟨ha, -⟩ := hsince
      · exact absurd hb hne
      · simp [ha]
    · obtain ha | ⟨hd, -⟩ | ⟨hh, -⟩ := hsince
      · exact absurd ha hne
      · simp [hd]
      · simp [hh]
    · obtain hd | hh | ⟨hb, -⟩ := hsince
      · exact absurd hd hne
      · simp [hh]
      · simp [hb]
    · obtain hh | ⟨hb, -⟩ := hsince
      · exact absurd hh hne
      · simp [hb]

end Sys2Proof.Machine
end

section
/-! SUPPORT. The machine as a whole: commands and the queue, and the state after reset. -/

namespace Sys2Proof.Machine

/-! ### Commands and the queue (log 1, log 2, log 22) -/

/-- A command of the table answers a next state. -/
theorem exec_of_wf {c : Instr} (h : c.wf = true) (s : State) : ∃ t, exec c s = .next t := by
  cases c with
  | upstreamRequest b => exact ⟨_, if_pos h⟩
  | refusedCommand code tag => exact ⟨_, if_pos h⟩
  | write register data => exact ⟨_, if_neg (by simpa [Instr.wf] using h)⟩
  | _ => exact ⟨_, rfl⟩

/-- A term that is no command of the table is refused. -/
theorem exec_of_not_wf {c : Instr} (h : c.wf = false) (s : State) : exec c s = .refused .illFormedCommand := by
  cases c with
  | upstreamRequest b => exact if_neg (by simpa [Instr.wf] using h)
  | refusedCommand code tag => exact if_neg (by simpa [Instr.wf] using h)
  | write register data => exact if_pos (by simpa [Instr.wf] using h)
  | _ => cases h

/-- No command changes the queue of those that wait behind it. -/
theorem exec_pending {c : Instr} {s t : State} (h : exec c s = .next t) : t.pending = s.pending :=
  exec_keeps (P := fun u => u.pending = s.pending) (fun _ _ _ hc hu => hc.pending.trans hu) h rfl

/-! ### The state after reset -/

theorem State.line_of_reset (i : Fin 64) : State.reset.line i = Line.empty := AccCache.line_reset i

theorem slotLaw_reset : SlotLaw State.reset := by
  have hslot (i : Fin 8) : State.reset.down.slot i = ⟨.free, false⟩ := by
    simp [State.reset, DownPort.reset, DownPort.slot]
  refine ⟨List.nodup_nil, fun i => ?_, nofun⟩
  rw [hslot]
  exact ⟨nofun, nofun⟩

theorem sizes_reset : Sizes State.reset :=
  ⟨by decide, by decide, by decide, fun i => by rw [State.line_of_reset]; decide, by decide, by decide, by decide⟩

/-! ### The statements -/

/-- Settles O1: the definition of a step. -/
theorem stepRunsTheFrontOfTheQueue : Obligations.StepRunsTheFrontOfTheQueue := fun _ _ _ => rfl

/-- Settles O2: each command by its row. -/
theorem commandsAnswerAndKeepTheQueue : Obligations.CommandsAnswerAndKeepTheQueue := by
  refine ⟨fun c s => ⟨fun h => exec_of_wf h s, fun h => exec_of_not_wf h s⟩, fun c s t => exec_pending, fun s h => ?_⟩
  rw [step, h]

/-- Settles O52: after reset the collections are empty, every line and slot is FREE, and the mode is BYPASS. -/
theorem resetSatisfiesTheLaws : Obligations.ResetSatisfiesTheLaws :=
  ⟨sizes_reset, ⟨by decide, by decide⟩, lineLaw_of_allFree State.line_of_reset rfl, slotLaw_reset, ringLaw_reset,
    by decide, modeLaw_of_reset rfl rfl rfl State.line_of_reset rfl rfl⟩

end Sys2Proof.Machine
end

section
/-! SUPPORT. Bytes and records (R2 to R4, R20, R22, 11.2): little-endian bytes and their integer, the record's word, the
forms in which it is presented, the operand of a write, and the watch. -/

namespace Sys2Proof.Machine

/-! ### Little-endian bytes (R182) -/

@[simp] theorem leBytes_length (n v : Nat) : (leBytes n v).length = n := by
  induction n generalizing v with
  | zero => rfl
  | succ n ih => simp [leBytes, ih]

theorem leBytes_getElem? (n v k : Nat) (hk : k < n) : (leBytes n v)[k]? = some (BitVec.ofNat 8 (v / 256 ^ k)) := by
  induction n generalizing v k with
  | zero => omega
  | succ n ih =>
    cases k with
    | zero => simp [leBytes]
    | succ k => simp [leBytes, ih (v / 256) k (by omega), Nat.div_div_eq_div_mul, pow_succ, Nat.mul_comm]

/-- The bytes of a word are its bits, eight at a time. -/
theorem leBytes_toNat_getElem? {w : Nat} (n : Nat) (x : BitVec w) (k : Nat) (hk : k < n) :
    (leBytes n x.toNat)[k]? = some (x.extractLsb' (8 * k) 8) := by
  rw [leBytes_getElem? n _ k hk]
  congr 1
  apply BitVec.eq_of_toNat_eq
  rw [BitVec.extractLsb'_toNat, BitVec.toNat_ofNat, Nat.shiftRight_eq_div_pow, Nat.pow_mul]

theorem leBytes_toNat_eq_map {w : Nat} (n : Nat) (x : BitVec w) :
    leBytes n x.toNat = (List.range n).map fun k => x.extractLsb' (8 * k) 8 := by
  refine List.ext_getElem? fun k => ?_
  rcases lt_or_ge k n with hk | hk
  · rw [leBytes_toNat_getElem? n x k hk, List.getElem?_map, List.getElem?_range hk]; rfl
  · rw [List.getElem?_eq_none (by simpa using hk), List.getElem?_eq_none (by simpa using hk)]

theorem leNat_lt (bytes : List Byte) : leNat bytes < 2 ^ (8 * bytes.length) := by
  induction bytes with
  | nil => simp [leNat]
  | cons b bs ih =>
    have hb := b.isLt
    rw [leNat, List.length_cons, show 8 * (bs.length + 1) = 8 * bs.length + 8 by ring, pow_add]
    omega

theorem leNat_leBytes (n v : Nat) : leNat (leBytes n v) = v % 2 ^ (8 * n) := by
  induction n generalizing v with
  | zero => simp [leBytes, leNat, Nat.mod_one]
  | succ n ih =>
    rw [leBytes, leNat, ih, BitVec.toNat_ofNat, show 8 * (n + 1) = 8 + 8 * n by ring, pow_add, Nat.mod_mul]
    norm_num

@[simp] theorem Order.arrange_length (o : Order) (bytes : List Byte) : (o.arrange bytes).length = bytes.length := by
  cases o <;> simp [Order.arrange]

/-- Bytes under an ORDER are the bytes, reversed under BIG. -/
theorem Order.arrange_eq (o : Order) (bytes : List Byte) :
    o.arrange bytes = if o = .big then bytes.reverse else bytes := by
  cases o <;> rfl

theorem Order.arrange_arrange (o : Order) (bytes : List Byte) : o.arrange (o.arrange bytes) = bytes := by
  cases o <;> simp [Order.arrange]

/-! ### The operand of a write (R4) -/

theorem operandOf_unsigned (order : Order) (data : List Byte) :
    operandOf order false data = leNat (order.arrange data) := by simp [operandOf]

theorem operandOf_signed (order : Order) (data : List Byte) :
    operandOf order true data = (BitVec.ofNat (8 * data.length) (leNat (order.arrange data))).toInt := by
  have hlt : leNat (order.arrange data) < 2 ^ (8 * data.length) := by simpa using leNat_lt (order.arrange data)
  rw [BitVec.toInt_eq_toNat_cond, BitVec.toNat_ofNat, Nat.mod_eq_of_lt hlt]
  simp only [operandOf, Bool.true_and, decide_eq_true_eq, Nat.cast_pow, Nat.cast_ofNat]
  by_cases hneg : 2 ^ (8 * data.length) ≤ 2 * leNat (order.arrange data)
  · rw [if_pos hneg, if_neg (by omega)]
  · rw [if_neg hneg, if_pos (by omega)]

/-! ### The record's word (R2, 11.2) -/

theorem Record.word_getLsbD (r : Record) (k : Nat) : r.word.getLsbD k =
    if k < 56 then r.value.getLsbD k else if k = 56 then r.ovf else if k = 57 then r.hit else
      decide (k = 58) && r.arm := by
  have hword : r.word.getLsbD k = (0#5 ++ BitVec.ofBool r.arm ++ BitVec.ofBool r.hit ++ BitVec.ofBool r.ovf ++ r.value :
      BitVec (5 + 1 + 1 + 1 + 56)).getLsbD k := rfl
  rw [hword]
  simp only [BitVec.getLsbD_append, BitVec.getLsbD_ofBool, BitVec.getLsbD_zero]
  obtain hk | rfl | rfl | rfl | hk : k < 56 ∨ k = 56 ∨ k = 57 ∨ k = 58 ∨ 59 ≤ k := by omega
  · simp [hk]
  · simp
  · simp
  · simp
  · have hlow : ¬ k < 56 ∧ ¬ k - 56 < 1 ∧ ¬ k - 56 - 1 < 1 ∧ ¬ k - 56 - 1 - 1 < 1 := by omega
    have hhigh : k ≠ 56 ∧ k ≠ 57 ∧ k ≠ 58 := by omega
    simp [hlow, hhigh]

theorem Record.decode_word (r : Record) : Record.decode r.word = r := by
  obtain ⟨value, ovf, hit, arm⟩ := r
  simp only [Record.decode, Record.word_getLsbD, Record.mk.injEq]
  refine ⟨BitVec.eq_of_getLsbD_eq fun k hk => ?_, ?_⟩
  · simp [Record.word_getLsbD, hk]
  · simp

theorem Record.word_reserved (r : Record) : r.word.extractLsb' 59 5 = 0 := by
  refine BitVec.eq_of_getLsbD_eq fun k hk => ?_
  have hhigh : ¬ 59 + k < 56 ∧ 59 + k ≠ 56 ∧ 59 + k ≠ 57 ∧ 59 + k ≠ 58 := by omega
  simp [BitVec.getLsbD_extractLsb', Record.word_getLsbD, hhigh]

theorem Record.bytes_getElem? (r : Record) (k : Nat) (hk : k < 8) :
    r.bytes[k]? = some (r.word.extractLsb' (8 * k) 8) := leBytes_toNat_getElem? 8 r.word k hk

/-- A byte of the presented record is that byte of the stored one, counted from the other end under BIG. -/
theorem presentedRecord_getElem? (order : Order) (r : Record) (k : Nat) (hk : k < 8) :
    (presentedRecord order r)[k]? = some (r.word.extractLsb' (8 * (if order = .little then k else 7 - k)) 8) := by
  have hlen : r.bytes.length = 8 := leBytes_length 8 _
  cases order with
  | little => exact r.bytes_getElem? k hk
  | big =>
    rw [presentedRecord, Order.arrange, List.getElem?_reverse (by omega), hlen]
    exact r.bytes_getElem? (7 - k) (by omega)

/-! ### The clamped view (R22) -/

/-- An integer that a size holds is read back from its bytes in two's complement. -/
theorem toInt_leNat_leBytes {n : Nat} {x : Int} (hn : 0 < n) (hlo : -2 ^ (8 * n - 1) ≤ x) (hhi : x < 2 ^ (8 * n - 1)) :
    (BitVec.ofNat (8 * n) (leNat (leBytes n (x % 2 ^ (8 * n)).toNat))).toInt = x := by
  have hpow : (2 : Int) ^ (8 * n) = 2 * 2 ^ (8 * n - 1) := by
    rw [← pow_succ']; congr 1; omega
  have hofInt : BitVec.ofNat (8 * n) (leNat (leBytes n (x % 2 ^ (8 * n)).toNat)) = BitVec.ofInt (8 * n) x := by
    apply BitVec.eq_of_toNat_eq
    rw [leNat_leBytes, BitVec.toNat_ofNat, BitVec.toNat_ofInt, Nat.mod_mod, Nat.mod_eq_of_lt]
    · norm_cast
    · have h0 := Int.emod_nonneg x (b := 2 ^ (8 * n)) (by positivity)
      have h1 := Int.emod_lt_of_pos x (b := 2 ^ (8 * n)) (by positivity)
      zify; rw [Int.toNat_of_nonneg h0]; exact h1
  rw [hofInt, BitVec.toInt_ofInt]
  exact Int.bmod_eq_of_le (by push_cast; omega) (by push_cast; omega)

theorem saturate_bounds {bits m : Nat} (h : bits ≤ m) (x : Int) :
    -2 ^ (m - 1) ≤ saturate bits x ∧ saturate bits x < 2 ^ (m - 1) := by
  have hpow : (2 : Int) ^ (bits - 1) ≤ 2 ^ (m - 1) := pow_le_pow_right₀ (by norm_num) (by omega)
  have hpos : (0 : Int) < 2 ^ (bits - 1) := by positivity
  unfold saturate
  generalize (2 : Int) ^ (bits - 1) = a at *
  generalize (2 : Int) ^ (m - 1) = b at *
  omega

theorem clampedView_toInt (order : Order) (size : Size) (r : Record) :
    (BitVec.ofNat (8 * size.bytes) (leNat (order.arrange (clampedView order size r)))).toInt =
      saturate (viewBits size) r.value.toInt := by
  rw [clampedView, Order.arrange_arrange, clampedValue]
  obtain ⟨hlo, hhi⟩ := saturate_bounds (bits := viewBits size) (m := 8 * size.bytes)
      (by cases size <;> decide) r.value.toInt
  exact toInt_leNat_leBytes (by cases size <;> decide) hlo hhi

/-! ### The watch (R20) -/

theorem evaluate_of_accumulate {op : PendingOp} (r : Record) (hp : op.kind ≠ .preset) (hr : op.kind ≠ .rearm) :
    evaluate op r = evaluateAccumulate op r := by
  unfold evaluate; split <;> simp_all

theorem watchFires_iff (watch : BitVec 6) (old new : Record) : watchFires watch old new = true ↔
    watch.toNat ≤ 55 ∧ old.arm = true ∧ old.hit = false ∧ old.value.getLsbD watch.toNat = false ∧
      new.value.getLsbD watch.toNat = true := by
  simp [watchFires, and_assoc, Nat.lt_succ_iff (n := 55)]

/-! ### The statements -/

/-- Settles O3: the word of a record, its presented bytes, and the clamped view. -/
theorem recordsAreStoredAndPresented : Obligations.RecordsAreStoredAndPresented := by
  refine ⟨⟨fun w => ⟨rfl, rfl, rfl, rfl⟩, fun r => ⟨r.word_reserved, r.decode_word, leBytes_toNat_eq_map 8 r.word⟩⟩,
    fun order offset size r hin => ⟨?_, fun k hk => ?_⟩, fun order size r => ⟨?_, ?_⟩⟩
  · simp only [View.answer, List.length_take, List.length_drop, presentedRecord, Order.arrange_length, Record.bytes,
      leBytes_length]
    omega
  · rw [View.answer, List.getElem?_take_of_lt hk, List.getElem?_drop]
    exact presentedRecord_getElem? order r (offset + k) (by omega)
  · simp [View.answer, clampedView]
  · have h := clampedView_toInt order size r
    rw [Order.arrange_eq] at h
    cases size <;> exact h

/-- Settles O4: the unsigned and the two's-complement reading of the bytes under ORDER. -/
theorem operandsFollowOrderAndSigned : Obligations.OperandsFollowOrderAndSigned := by
  intro order data _
  rw [← Order.arrange_eq]
  exact ⟨by simpa using leNat_lt (order.arrange data), operandOf_unsigned order data, operandOf_signed order data⟩

/-- Settles O8: the watch is judged on the old record and the new VALUE, and sets HIT. -/
theorem theWatchFiresOnARisingBit : Obligations.TheWatchFiresOnARisingBit := by
  intro op r hp hr
  rw [evaluate_of_accumulate r hp hr]
  refine ⟨watchFires_iff _ _ _, fun hf => ?_, fun hf => ?_, accumulated_arm⟩
  · simp only [evaluateAccumulate] at hf ⊢
    rw [hf, Bool.or_true]
  · simp only [evaluateAccumulate] at hf ⊢
    rw [hf, Bool.or_false, accumulated_hit]

end Sys2Proof.Machine
end

section
/-! SUPPORT. The lines of the Management Link (O45, O49): what the receiver makes of a character (R166 to R169), and
what the transmitter sends (R171). -/

namespace Sys2Proof.Machine

variable (s : State)

/-! #### Parity -/

theorem foldl_bne_eq_countP (f : Nat → Bool) (l : List Nat) (p : Bool) :
    l.foldl (fun acc i => acc != f i) p = decide ((l.countP f + p.toNat) % 2 = 1) := by
  induction l generalizing p with
  | nil => cases p <;> rfl
  | cons x l ih =>
    rw [List.foldl_cons, ih, List.countP_cons]
    cases p <;> cases f x <;> grind

/-- A parity error is found when the ones among data and parity are not even (R166). -/
theorem oddParity_eq (data : Byte) (parity : Bool) :
    oddParity data parity = !decide (((List.range 8).countP data.getLsbD + parity.toNat) % 2 = 0) := by
  rw [oddParity, foldl_bne_eq_countP]
  cases h : decide (((List.range 8).countP data.getLsbD + parity.toNat) % 2 = 0) <;> simp_all

/-! #### The receiver -/

theorem State.onLink_running {s : State} (h : s.running) (f : Link → Link) :
    s.onLink f = { s with link := f s.link } := by
  simp only [State.onLink, h, Bool.false_eq_true, if_false, State.withLink]

theorem Link.arrive_awaitStop {l : Link} (h : l.awaitStop = true) (data : Byte) (parity stop : Bool) :
    l.arrive data parity stop = l := by
  simp [Link.arrive, h]

theorem Link.arrive_good {l : Link} {data : Byte} {parity stop : Bool} (h : l.awaitStop = false)
    (hg : (stop && !oddParity data parity) = true) :
    l.arrive data parity stop =
      Link.receive data { l with receiving := false, gapRunning := true, awaitStop := !stop } := by
  simp only [Link.arrive, h, hg, Bool.false_eq_true, if_false, if_true]

theorem Link.arrive_bad {l : Link} {data : Byte} {parity stop : Bool} (h : l.awaitStop = false)
    (hg : (stop && !oddParity data parity) = false) :
    l.arrive data parity stop = Link.enterDiscard { l with
      receiving := false, gapRunning := true, awaitStop := !stop
      errors := { l.errors with
        framing := l.errors.framing || !stop
        parity := l.errors.parity || oddParity data parity } } := by
  simp only [Link.arrive, h, hg, Bool.false_eq_true, if_false]

theorem Link.gapExpired_partial {l : Link} {taken : List Byte} (hb : l.buffer = [])
    (hp : l.parser = .assembling taken) :
    l.gapExpired = { l with
      gapRunning := false, discard := false, parser := .idle, errors := { l.errors with timeoutDiscard := true } } := by
  simp only [Link.gapExpired, hb, hp]

theorem Link.gapExpired_whole {l : Link} (h : l.buffer ≠ [] ∨ ∀ taken, l.parser ≠ .assembling taken) :
    l.gapExpired = { l with gapRunning := false, discard := false, gapAwaiting := true } := by
  simp only [Link.gapExpired]
  split
  next taken hb hp =>
    cases h with
    | inl h => exact absurd hb h
    | inr h => exact absurd hp (h taken)
  next => rfl

theorem mlrtsAsserted_levels : (s.running → s.link.buffer.length ≤ 5 → s.mlrtsAsserted = true) ∧
    (6 ≤ s.link.buffer.length → s.mlrtsAsserted = false) ∧ (¬ s.running → s.mlrtsAsserted = false) := by
  refine ⟨fun hr hl => by simp [State.mlrtsAsserted, hr, hl], fun hl => ?_, fun hr => ?_⟩
  · simp [State.mlrtsAsserted, Nat.not_le.mpr (by omega : 5 < s.link.buffer.length)]
  · simp [State.mlrtsAsserted, Bool.eq_true_of_not_eq_false hr]

/-- Settles O45: the cases of R166 to R169, each by the equation of the receiver for it. -/
theorem charactersAreReceived : Obligations.CharactersAreReceived := by
  refine ⟨mlrtsAsserted_levels, fun s data parity stop hr => ?_⟩
  have good (hg : (stop && decide (((List.range 8).countP data.getLsbD + parity.toNat) % 2 = 0)) = true) :
      (stop && !oddParity data parity) = true := by
    rwa [oddParity_eq, Bool.not_not]
  have arrives : exec (.characterArrival data parity stop) s =
      .next { s with link := s.link.arrive data parity stop } :=
    congrArg _ (State.onLink_running hr _)
  refine ⟨fun ha => ?_, fun ha hg => ?_, fun ha hg hd hb => ?_, fun ha hg hd hb => ?_, fun ha hg hd => ?_,
    fun hgap h => ?_, fun taken hgap hb hp => ?_, fun hgap => ?_, fun hrec ha => ?_, ?_⟩
  · rw [arrives, Link.arrive_awaitStop ha]
  · rw [arrives, Link.arrive_bad ha (by rwa [oddParity_eq, Bool.not_not]), Link.enterDiscard, oddParity_eq]
    rfl
  · rw [arrives, Link.arrive_good ha (good hg), Link.receive, if_neg (by simp [hd]),
      if_neg (by simpa [Config.bufferDepth] using hb), Link.enterDiscard]
    rfl
  · rw [arrives, Link.arrive_good ha (good hg), Link.receive, if_neg (by simp [hd]),
      if_pos (by simpa [Config.bufferDepth] using hb)]
  · rw [arrives, Link.arrive_good ha (good hg), Link.receive, if_pos hd]
  · show Host.Outcome.next _ = _
    rw [State.onLink_running hr, if_pos hgap, Link.gapExpired_whole h]
  · show Host.Outcome.next _ = _
    rw [State.onLink_running hr, if_pos hgap, Link.gapExpired_partial hb hp]
  · show Host.Outcome.next _ = _
    rw [State.onLink_running hr, if_neg (by simp [hgap])]
  · show Host.Outcome.next _ = _
    rw [State.onLink_running hr, if_neg (by simp [hrec, ha])]
  · show Host.Outcome.next _ = _
    rw [State.onLink_running hr]

/-! #### The transmitter -/

theorem State.mltxByte_begun {s : State} {b : Byte} {rest : List Byte} {r : Bool} (hr : s.running)
    (h : s.link.parser = .responding (b :: rest) true r) : s.mltxByte = some b := by
  simp [State.mltxByte, h, hr]

theorem State.mltxByte_held {s : State} {rest : List Byte} {r : Bool}
    (h : s.link.parser = .responding rest false r) : s.mltxByte = none := by
  simp [State.mltxByte, h]

theorem State.mltxByte_reset {s : State} (h : ¬ s.running) : s.mltxByte = none := by
  rw [State.mltxByte]
  split
  next => rw [if_pos (Bool.eq_true_of_not_eq_false h)]
  next => rfl

/-- The frame on MLTX has its data bits least significant first and an even number of ones (R166). -/
theorem characterFrame_bits (b : Byte) : ∃ d0 d1 d2 d3 d4 d5 d6 d7 p : Bool,
    characterFrame b =
      [.start, .bit d0, .bit d1, .bit d2, .bit d3, .bit d4, .bit d5, .bit d6, .bit d7, .bit p, .stop] ∧
    (∀ k, k < 8 → [d0, d1, d2, d3, d4, d5, d6, d7][k]? = some (b.getLsbD k)) ∧
    [d0, d1, d2, d3, d4, d5, d6, d7, p].count true % 2 = 0 := by
  refine ⟨b.getLsbD 0, b.getLsbD 1, b.getLsbD 2, b.getLsbD 3, b.getLsbD 4, b.getLsbD 5, b.getLsbD 6, b.getLsbD 7,
    oddParity b false, rfl, fun k hk => ?_, ?_⟩
  · interval_cases k <;> rfl
  · revert b; decide +kernel

theorem Parser.begin_of_not_responding {p : Parser} (h : ∀ rest begun r, p ≠ .responding rest begun r) :
    p.begin = p := by
  cases p with
  | responding rest begun r => exact absurd rfl (h rest begun r)
  | idle | assembling | serving => rfl

theorem State.responseDone_held {s : State} {rest : List Byte} {r : Bool}
    (h : s.link.parser = .responding rest false r) : s.responseDone = s := by
  rw [State.responseDone]
  split
  next hp => rw [h] at hp; cases hp
  next => rfl

/-- Settles O49: the cases of the parser, and of the level of MLCTS. -/
theorem responsesAreSentUnderFlowControl : Obligations.ResponsesAreSentUnderFlowControl := by
  refine ⟨fun s => ⟨State.mltxByte_reset, fun b hb => ?_, fun hb => by rw [State.mltxFrame, hb]⟩, fun s hr =>
    ⟨fun rest begun r hp => ?_, fun hp => ?_, rfl, fun a b rest r hp => ⟨State.mltxByte_begun hr hp, ?_⟩,
      fun rest r hp => ⟨State.mltxByte_held hp, ?_, ?_⟩, fun a hp => ?_⟩⟩
  · simpa only [State.mltxFrame, hb] using characterFrame_bits b
  · show Host.Outcome.next _ = _
    rw [State.onLink_running (by exact hr), State.withPins, hp]
    rfl
  · show Host.Outcome.next _ = _
    rw [State.onLink_running (by exact hr), State.withPins, Parser.begin_of_not_responding hp]
  · show Host.Outcome.next _ = _
    rw [State.onLink_running hr, hp]
    rfl
  · show Host.Outcome.next _ = _
    rw [State.onLink_running hr, hp, Parser.byteSent, ← hp]
    nofun
  · show Host.Outcome.next _ = _
    rw [if_neg (by simp [hr]), State.responseDone_held hp]
  · show Host.Outcome.next _ = _
    rw [if_neg (by simp [hr]), State.responseDone, hp]
    rfl

end Sys2Proof.Machine
end

section
/-! SUPPORT. The frames and registers of the Management Link (O46, O47): the response, the judgement of a frame
(R170, R171) and the register table (R172). -/

namespace Sys2Proof.Machine

variable (s : State)

/-! #### The response -/

theorem leBytes_four (d : BitVec 32) : leBytes 4 d.toNat =
    [d.extractLsb' 0 8, d.extractLsb' 8 8, d.extractLsb' 16 8, d.extractLsb' 24 8] := by
  simp only [leBytes, List.cons.injEq, and_true]
  refine ⟨?_, ?_, ?_, ?_⟩ <;>
  · apply BitVec.eq_of_toNat_eq
    simp only [BitVec.toNat_ofNat, BitVec.extractLsb'_toNat, Nat.shiftRight_eq_div_pow, Nat.reducePow,
      Nat.div_div_eq_div_mul, Nat.reduceMul, Nat.div_one]

theorem toNat_append_byte {n : Nat} (a : BitVec n) (b : Byte) : (a ++ b).toNat = a.toNat * 256 + b.toNat := by
  rw [BitVec.toNat_append, ← Nat.shiftLeft_add_eq_or_of_lt b.isLt, Nat.shiftLeft_eq]

theorem leNat_four (d0 d1 d2 d3 : Byte) : BitVec.ofNat 32 (leNat [d0, d1, d2, d3]) = d3 ++ d2 ++ d1 ++ d0 := by
  apply BitVec.eq_of_toNat_eq
  have h0 := d0.isLt
  have h1 := d1.isLt
  have h2 := d2.isLt
  have h3 := d3.isLt
  simp only [leNat, BitVec.toNat_ofNat, toNat_append_byte, Nat.reducePow]
  omega

theorem State.answerLink_eq_responding (status : Byte) (d : BitVec 32) (r : Bool) :
    s.answerLink status d r = s.responding status d r := by
  simp only [State.answerLink, State.responding, State.withLink, responseBytes, leBytes_four, checkSum_eq_sum,
    List.sum_cons, List.cons_append, List.nil_append]

/-! #### Taking a byte -/

/-- The bytes the next byte is added to: none when it opens a new frame after a gap (R168, R170). -/
theorem State.takeByte_eq {s : State} {x : LinkByte} {rest : List LinkByte} {taken : List Byte}
    (hb : s.link.buffer = x :: rest)
    (hp : s.link.parser = .idle ∧ taken = [] ∨ s.link.parser = .assembling taken) :
    s.takeByte = State.extendFrame
      (if (decide (s.link.parser = .assembling taken) && x.followsGap) = true then [] else taken) x.byte
      { s with link := { s.link with
        buffer := rest
        errors := { s.link.errors with timeoutDiscard :=
          s.link.errors.timeoutDiscard || (decide (s.link.parser = .assembling taken) && x.followsGap) } } } := by
  obtain ⟨hp, ht⟩ | hp := hp
  · subst ht
    simp [State.takeByte, hb, hp, State.withLink]
  · cases hg : x.followsGap <;> simp [State.takeByte, hb, hp, hg, State.withLink]

theorem getD_zero_of_getElem? {frame : List Byte} {b : Byte} (h : frame[0]? = some b) : frame.getD 0 0 = b := by
  rw [List.getD_eq_getElem?_getD, h, Option.getD_some]

theorem frameLength_append_singleton (taken : List Byte) (b : Byte) :
    frameLength ((taken ++ [b]).getD 0 0) = if (taken ++ [b])[0]? = some 2 then 7 else 3 := by
  cases taken <;> simp [frameLength]

theorem State.extendFrame_short {taken : List Byte} {b : Byte}
    (h : (taken ++ [b]).length < if (taken ++ [b])[0]? = some 2 then 7 else 3) :
    s.extendFrame taken b = { s with link := { s.link with parser := .assembling (taken ++ [b]) } } := by
  simp only [State.extendFrame, frameLength_append_singleton, if_pos h, State.withLink]

theorem State.extendFrame_whole {taken : List Byte} {b : Byte}
    (h : (taken ++ [b]).length = if (taken ++ [b])[0]? = some 2 then 7 else 3) :
    s.extendFrame taken b = s.judgeFrame (taken ++ [b]) := by
  simp only [State.extendFrame, frameLength_append_singleton, if_neg h.not_lt]

/-! #### The judgement -/

theorem checkByte_iff (taken : List Byte) (b : Byte) :
    (taken ++ [b]).getD ((taken ++ [b]).length - 1) 0 = checkSum (taken ++ [b]).dropLast ↔
      (taken ++ [b]).getLast? = some (taken ++ [b]).dropLast.sum := by
  simp [checkSum_eq_sum]

theorem State.judgeFrame_badCheck {frame : List Byte}
    (h : frame.getD (frame.length - 1) 0 ≠ checkSum frame.dropLast) :
    s.judgeFrame frame = State.responding
      { s with link := { s.link with errors := { s.link.errors with badCheckSeen := true } } } 1 0 false := by
  rw [State.judgeFrame, if_pos h, State.answerLink_eq_responding]
  rfl

theorem State.judgeFrame_unknown {frame : List Byte}
    (h : frame.getD (frame.length - 1) 0 = checkSum frame.dropLast) (hc : LinkCommand.ofFrame frame = none) :
    s.judgeFrame frame = s.responding 2 0 false := by
  rw [State.judgeFrame, if_neg (not_not.mpr h), hc]
  exact State.answerLink_eq_responding s _ _ _

theorem State.judgeFrame_command {frame : List Byte} {c : LinkCommand}
    (h : frame.getD (frame.length - 1) 0 = checkSum frame.dropLast) (hc : LinkCommand.ofFrame frame = some c) :
    s.judgeFrame frame = { s with link := { s.link with parser := .serving c } } := by
  rw [State.judgeFrame, if_neg (not_not.mpr h), hc]
  rfl

theorem LinkCommand.ofFrame_eq_none {frame : List Byte}
    (h : frame[0]? = some 0 ∨ ∃ b ∈ frame[0]?, 5 < b.toNat) : LinkCommand.ofFrame frame = none := by
  obtain ⟨b, hb, hn⟩ : ∃ b, frame[0]? = some b ∧ (b.toNat = 0 ∨ 5 < b.toNat) := by
    obtain h | ⟨b, hb, hn⟩ := h
    · exact ⟨0, h, .inl rfl⟩
    · exact ⟨b, hb, .inr hn⟩
  rw [LinkCommand.ofFrame, getD_zero_of_getElem? hb]
  split <;> first | rfl | omega

theorem List.eq_of_take_two {frame : List Byte} {a r : Byte} (h : frame.take 2 = [a, r]) :
    frame = a :: r :: frame.drop 2 := by
  rw [← List.take_append_drop 2 frame, h]
  rfl

/-- The opcodes of R170 but WRITE, whose data are in the frame. -/
theorem LinkCommand.ofFrame_of_take {frame : List Byte} {c : LinkCommand} {r : Byte}
    (h : c = .read r ∧ frame.take 2 = [1, r] ∨ c = .forceBypass ∧ frame.take 2 = [3, r] ∨
      c = .clearFlags ∧ frame.take 2 = [4, r] ∨ c = .restart ∧ frame.take 2 = [5, r]) :
    LinkCommand.ofFrame frame = some c := by
  obtain ⟨rfl, h⟩ | ⟨rfl, h⟩ | ⟨rfl, h⟩ | ⟨rfl, h⟩ := h <;>
  · rw [List.eq_of_take_two h]
    rfl

theorem LinkCommand.ofFrame_write {frame : List Byte} {r d0 d1 d2 d3 : Byte}
    (h : frame.take 6 = [2, r, d0, d1, d2, d3]) :
    LinkCommand.ofFrame frame = some (.write r (d3 ++ d2 ++ d1 ++ d0)) := by
  rw [← List.take_append_drop 6 frame, h, ← leNat_four]
  rfl

/-- Settles O46: the byte is taken, and the frame it makes is short, or whole and judged. -/
theorem framesAreAssembledAndJudged : Obligations.FramesAreAssembledAndJudged := by
  intro s x rest taken hr hb hp
  dsimp only
  have take : exec .parserTakeByte s = .next s.takeByte := by
    show Host.Outcome.next _ = _
    rw [if_neg (by simp [hr])]
  rw [take, State.takeByte_eq hb hp]
  generalize (if (decide (s.link.parser = .assembling taken) && x.followsGap) = true then [] else taken) = base
  rw [← checkByte_iff]
  refine ⟨fun hl => ?_, fun hl hc => ?_, fun hl hc hu => ?_, fun c r h hl hc => ?_, fun r d0 d1 d2 d3 h hl hc => ?_⟩
  · rw [State.extendFrame_short _ hl]
  · rw [State.extendFrame_whole _ hl, State.judgeFrame_badCheck _ hc]
  · rw [State.extendFrame_whole _ hl, State.judgeFrame_unknown _ hc (LinkCommand.ofFrame_eq_none hu)]
  · rw [State.extendFrame_whole _ hl, State.judgeFrame_command _ hc (LinkCommand.ofFrame_of_take h)]
  · rw [State.extendFrame_whole _ hl, State.judgeFrame_command _ hc (LinkCommand.ofFrame_write h)]

end Sys2Proof.Machine
end

section
/-! SUPPORT. The ACK list and the fault latch (O44), and the management commands (O47): R162 to R164, R171 to R173. -/

namespace Sys2Proof.Machine

variable (s : State)

/-! #### The ACK list and the fault latch -/

theorem State.pushAck_room {s : State} (a : Ack) (h : s.cm.mirror.acks.length < 4) :
    s.pushAck a = { s with cm := { s.cm with mirror := { s.cm.mirror with acks := s.cm.mirror.acks ++ [a] } } } := by
  simp only [State.pushAck, if_pos (show s.cm.mirror.acks.length < Config.ackDepth from h), State.withCm]

theorem State.pushAck_full {s : State} (a : Ack) (h : 4 ≤ s.cm.mirror.acks.length) :
    s.pushAck a = s.raiseMirrorFault := by
  simp only [State.pushAck, if_neg (show ¬ s.cm.mirror.acks.length < Config.ackDepth from Nat.not_lt.mpr h)]

theorem State.setLatch_first {s : State} (e : EventRecord) (h : s.cm.latch = ⟨none, false⟩) :
    s.setLatch ⟨some e, false⟩ = { s with cm := { s.cm with
      latch := ⟨some e, false⟩, mirror := { s.cm.mirror with statusPending := true, faultPending := true } } } := by
  simp [State.setLatch, State.withCm, h, FaultLatch.latched]

theorem State.setLatch_more {s : State} {first : EventRecord} {more : Bool} (h : s.cm.latch = ⟨some first, more⟩) :
    s.setLatch ⟨some first, true⟩ = { s with cm := { s.cm with
      latch := ⟨some first, true⟩
      mirror := { s.cm.mirror with statusPending := s.cm.mirror.statusPending || !more } } } := by
  cases more <;> simp [State.setLatch, State.withCm, h, FaultLatch.latched]

/-- Settles O44: room in the ACK list or none, the two statuses of a mirror write, and the latch empty or not. -/
theorem acksAndFaultsAreKept : Obligations.AcksAndFaultsAreKept := by
  intro s a e data
  refine ⟨fun h => ?_, fun h => ?_, rfl, ?_, fun h => ?_, fun first more h => ?_⟩
  · exact State.pushAck_room (s := s.withCm { s.cm with mirror := { s.cm.mirror with lastAck := some a } }) a h
  · exact (State.pushAck_full (s := s.withCm { s.cm with mirror := { s.cm.mirror with lastAck := some a } }) a h).trans
      (State.raiseMirrorFault_eq _)
  · exact State.raiseMirrorFault_eq (s.withCm { s.cm with mirror := { s.cm.mirror with inFlight := false } })
  · rw [State.reportFault, h]
    exact State.setLatch_first e h
  · rw [State.reportFault, h]
    exact State.setLatch_more h

/-! #### The command's own step -/

theorem exec_read {s : State} {n : Byte} (h : s.takesCommand (.read n)) (hw : s.cm.recognised = []) :
    exec (.read n) s = .next (match s.register n with
      | some value => s.responding 0 value false
      | none => s.responding 3 0 false) := by
  show Host.Outcome.next _ = _
  rw [State.afterWords_none hw, State.onCommand_taken h]
  cases s.register n with
  | some value => exact congrArg _ (State.answerLink_eq_responding ..)
  | none => exact congrArg _ (State.answerLink_eq_responding ..)

theorem exec_write {s : State} {n : Byte} {d : BitVec 32} (hn : n ≠ 6) (h : s.takesCommand (.write n d)) :
    exec (.write n d) s = .next (s.responding (if (s.register n).isSome then 4 else 3) 0 false) := by
  show execWrite n d s = _
  rw [execWrite, if_neg (show ¬ n = cbBaseRegister from hn), State.onCommand_taken h, State.answerLink_eq_responding]
  rfl

/-! #### The register table -/

theorem LineErrors.word_eq (e : LineErrors) : e.word = e.framing.toNat + 2 * e.parity.toNat + 4 * e.overrunLine.toNat
    + 8 * e.timeoutDiscard.toNat + 16 * e.badCheckSeen.toNat := by
  have bit (b : Bool) (i : Nat) : bitAt b i = 2 ^ i * b.toNat := by cases b <;> simp [bitAt]
  simp only [LineErrors.word, bit, Nat.reducePow, Nat.one_mul]

theorem State.register_eq_none {n : Byte} (h : ¬ (n.toNat ≤ 6 ∨ 0x10 ≤ n.toNat ∧ n.toNat ≤ 0x17)) :
    s.register n = none := by
  grind [State.register]

/-- The register table of R172. -/
theorem State.register_eq {n : Byte} (h : n.toNat ≤ 6 ∨ 0x10 ≤ n.toNat ∧ n.toNat ≤ 0x17) :
    s.register n = some (
        if n = 0 then 0x4A4C0740
        else if n = 1 then BitVec.ofNat 32
          (s.cm.mode.code + 0x100 * s.cm.fatalCause.code + 0x10000 * s.cm.inProgress.isSome.toNat)
        else if n = 2 then BitVec.ofNat 32 (flagsWord s.cm.flags s.cm.latch)
        else if n = 3 then BitVec.ofNat 32 ((s.cm.configCode.map ConfigCode.number).getD 0)
        else if n = 4 then s.ring.consumed ++ s.ring.produced
        else if n = 5 then BitVec.ofNat 32
          (s.link.errors.framing.toNat + 2 * s.link.errors.parity.toNat + 4 * s.link.errors.overrunLine.toNat
            + 8 * s.link.errors.timeoutDiscard.toNat + 16 * s.link.errors.badCheckSeen.toNat)
        else if n = 6 then s.cm.cbBase
        else BitVec.ofNat 32 (leNat (((lastFaultBytes s.cm.latch).drop (4 * (n.toNat - 0x10))).take 4))) := by
  have named (k : Nat) (hk : k < 256) : n.toNat = k ↔ n = BitVec.ofNat 8 k := by
    rw [← BitVec.toNat_inj, BitVec.toNat_ofNat, Nat.mod_eq_of_lt hk]
  have busy : bitAt s.cm.inProgress.isSome 16 = 0x10000 * s.cm.inProgress.isSome.toNat := by
    cases s.cm.inProgress.isSome <;> rfl
  by_cases hlow : n.toNat ≤ 6
  · simp only [State.register, named 0, named 1, named 2, named 3, named 4, named 5, named 6, Nat.reduceLT,
      LineErrors.word_eq, busy, Config.partId]
    have : n = 0 ∨ n = 1 ∨ n = 2 ∨ n = 3 ∨ n = 4 ∨ n = 5 ∨ n = 6 := by bv_omega
    obtain rfl | rfl | rfl | rfl | rfl | rfl | rfl := this <;> rfl
  · have high := h.resolve_left hlow
    have other (m : Byte) (hm : m.toNat ≤ 6) : ¬ n = m := fun hn => hlow (hn ▸ hm)
    have other' (k : Nat) (hk : k ≤ 6) : ¬ n.toNat = k := by omega
    simp only [State.register, other' 0 (by omega), other' 1 (by omega), other' 2 (by omega), other' 3 (by omega),
      other' 4 (by omega), other' 5 (by omega), other' 6 (by omega), if_false, if_pos high]
    rw [if_neg (other 0 (by decide)), if_neg (other 1 (by decide)), if_neg (other 2 (by decide)),
      if_neg (other 3 (by decide)), if_neg (other 4 (by decide)), if_neg (other 5 (by decide)),
      if_neg (other 6 (by decide))]

/-! #### The move of the control block -/

theorem low_byte_eq_zero_iff (d : BitVec 32) : d.extractLsb' 0 8 = 0 ↔ d.toNat % 256 = 0 := by
  rw [← BitVec.toNat_inj]
  simp

theorem State.mayMove_iff {d : BitVec 32} :
    s.mayMove d = true ↔ s.cm.mode = .bypass ∧ s.cm.inProgress = none ∧ d.toNat % 256 = 0 := by
  simp [State.mayMove, ← low_byte_eq_zero_iff, and_assoc]

theorem exec_writeCbBase {s : State} {d : BitVec 32} (h : s.takesCommand (.write 6 d)) (hw : s.cm.recognised = []) :
    exec (.writeCbBase d) s = .next (if s.mayMove d then (s.moveControlBlock d).responding 0 0 false
      else s.responding 4 0 false) := by
  show Host.Outcome.next _ = _
  rw [State.afterWords_none hw, State.onCommand_taken (c := .write cbBaseRegister d) h]
  split <;> simp only [State.answerLink_eq_responding, statusOk, statusRefused]

/-- Settles O47: the rows READ, WRITE and WRITE_CB_BASE, with the register table. -/
theorem registersAreReadAndGuarded : Obligations.RegistersAreReadAndGuarded := by
  refine ⟨fun s n d => ⟨fun h hw hk => ?_, fun h hw hk => ?_, fun hn h hk => ?_, fun hn h hk => ?_, rfl⟩,
    fun s d h hw => ⟨fun hm hl => ?_, fun hm hl => ?_, fun hm => ?_⟩⟩
  · rw [exec_read h hw, State.register_eq s hk]
  · rw [exec_read h hw, State.register_eq_none s hk]
  · rw [exec_write hn h, State.register_eq s hk]
    rfl
  · rw [exec_write hn h, State.register_eq_none s hk]
    rfl
  · rw [exec_writeCbBase h hw, if_pos (s.mayMove_iff.mpr hm), State.moveControlBlock]
    exact congrArg (fun t : State => Host.Outcome.next (t.responding 0 0 false)) (State.pushAck_room _ hl)
  · rw [exec_writeCbBase h hw, if_pos (s.mayMove_iff.mpr hm), State.moveControlBlock,
      State.pushAck_full _ (by exact hl), State.raiseMirrorFault_eq]
    rfl
  · rw [exec_writeCbBase h hw, if_neg (mt s.mayMove_iff.mp hm)]

end Sys2Proof.Machine
end

section
/-! SUPPORT. FORCE_BYPASS, CLEAR_FLAGS and RESTART (O48): R160, R174 to R176. -/

namespace Sys2Proof.Machine

variable (s : State)

/-! #### Ending a request -/

/-- Both branches of the ACK list at once: with no room, MIRROR_FAULT takes the place of the entry (R163, R164). -/
theorem State.formAck_eq (a : Ack) : s.formAck a = { s with cm := { s.cm with
    flags := { s.cm.flags with mirrorFault := s.cm.flags.mirrorFault || decide (4 ≤ s.cm.mirror.acks.length) }
    mirror := { s.cm.mirror with
      lastAck := some a
      acks := if 4 ≤ s.cm.mirror.acks.length then s.cm.mirror.acks else s.cm.mirror.acks ++ [a]
      statusPending := s.cm.mirror.statusPending
        || (decide (4 ≤ s.cm.mirror.acks.length) && !s.cm.flags.mirrorFault) } } } := by
  by_cases h : 4 ≤ s.cm.mirror.acks.length
  · rw [State.formAck, State.pushAck_full _ (by exact h), State.raiseMirrorFault_eq]
    simp only [State.withCm, h, decide_true, if_true, Bool.or_true, Bool.true_and]
  · rw [State.formAck, State.pushAck_room _ (by exact Nat.lt_of_not_le h)]
    simp only [State.withCm, h, decide_false, if_false, Bool.or_false, Bool.false_and]

theorem State.endRequest_block {s : State} {c : Command} {tag : Byte} (h : s.cm.inProgress = some (.block c tag))
    (outcome : AckOutcome) : s.endRequest outcome none =
      State.formAck ⟨c.code, tag, some outcome, 0⟩ { s with cm := { s.cm with inProgress := none } } := by
  simp only [State.endRequest, h]
  rfl

theorem State.endRequest_link {s : State} (h : s.cm.inProgress = some .link) (outcome : AckOutcome)
    (code : Option ConfigCode) : s.endRequest outcome code = { s with cm := { s.cm with inProgress := none } } := by
  simp only [State.endRequest, h, State.withCm]

theorem State.endRequest_none {s : State} (h : s.cm.inProgress = none) (outcome : AckOutcome)
    (code : Option ConfigCode) : s.endRequest outcome code = s := by
  simp only [State.endRequest, h]

/-! #### Beginning the way to BYPASS -/

theorem State.settleHold_of_path_or_hold {s : State} (h : ¬ (s.cm.hold = none ∧ s.path = none)) :
    s.settleHold = s := by
  rw [State.settleHold]
  split
  next hhold hpath => exact absurd ⟨hhold, hpath⟩ h
  next => rfl

theorem State.settleHold_in_force {s : State} {h : Hold} (hp : s.cm.placed = some h) (hhold : s.cm.hold = none)
    (hpath : s.path = none) : s.settleHold = s.holdInForce h := by
  simp only [State.settleHold, hp, hhold, hpath]

theorem State.beginLeaving_active {s : State} (h : s.cm.mode = .active) : s.beginLeaving =
    State.settleHold { s with cm := { s.cm with
      mode := .draining
      fatalCause := .noCause
      leaving := .starting
      placed := some .drainStart
      mirror := { s.cm.mirror with modePending := true } } } := by
  simp only [State.beginLeaving, h, State.setMode, State.withCm, State.placeHold]
  simp

theorem State.beginLeaving_halted {s : State} (h : s.cm.mode = .halted) :
    s.beginLeaving = { s with cm := { s.cm with leaving := .discarding } } := by
  simp only [State.beginLeaving, h, State.withCm]

theorem State.beginLeaving_bypass {s : State} (h : s.cm.mode = .bypass) : s.beginLeaving = s.endRequest .done none := by
  simp only [State.beginLeaving, h]

theorem State.beginLeaving_draining {s : State} (h : s.cm.mode = .draining) : s.beginLeaving = s := by
  simp only [State.beginLeaving, h]

/-! #### The abandoned request -/

/-- The Control Monitor with the request of `c` abandoned for a forced bypass (R160, step 1; log 18). -/
def ControlMonitor.abandoned (c : Command) (tag : Byte) (cm : ControlMonitor) : ControlMonitor :=
  let loads := c = .activate ∨ c = .ringRestart
  let full := decide (4 ≤ cm.mirror.acks.length)
  let ack : Ack := ⟨c.code, tag, some .abandoned, 0⟩
  { cm with
    inProgress := some .link
    hold := if loads ∧ cm.configRead = .offered then none else cm.hold
    placed := match cm.configRead with
      | .inFlight _ => cm.placed
      | .offered | .idle => if loads then none else cm.placed
    configRead := match cm.configRead with
      | .inFlight b => if loads then .inFlight true else .inFlight b
      | .offered => if loads then .idle else .offered
      | .idle => .idle
    flags := { cm.flags with mirrorFault := cm.flags.mirrorFault || full }
    mirror := { cm.mirror with
      lastAck := some ack
      acks := if full then cm.mirror.acks else cm.mirror.acks ++ [ack]
      statusPending := cm.mirror.statusPending || (full && !cm.flags.mirrorFault) } }

theorem State.abandonLoad_eq : s.abandonLoad = { s with cm := { s.cm with
    hold := if s.cm.configRead = .offered then none else s.cm.hold
    placed := match s.cm.configRead with
      | .inFlight _ => s.cm.placed
      | .offered | .idle => none
    configRead := match s.cm.configRead with
      | .inFlight _ => .inFlight true
      | .offered | .idle => .idle } } := by
  cases h : s.cm.configRead with
  | idle | inFlight => simp [State.abandonLoad, State.withCm, h]
  | offered => simp [State.abandonLoad, State.releaseHold, State.settleHold, State.withCm, h]

theorem State.abandonRequest_eq {s : State} {c : Command} {tag : Byte}
    (h : s.cm.inProgress = some (.block c tag)) :
    s.abandonRequest.withCm { s.abandonRequest.cm with inProgress := some .link } =
      { s with cm := s.cm.abandoned c tag } := by
  by_cases hc : c = .activate ∨ c = .ringRestart
  · have hab : s.abandonRequest = s.abandonLoad.endRequest .abandoned none := by
      obtain rfl | rfl := hc <;> simp only [State.abandonRequest, h]
    have hin : s.abandonLoad.cm.inProgress = some (.block c tag) := by rw [State.abandonLoad_eq]; exact h
    rw [hab, State.endRequest_block hin, State.formAck_eq, State.abandonLoad_eq]
    simp only [State.withCm, ControlMonitor.abandoned, hc, true_and, if_true, decide_eq_true_eq]
  · have hab : s.abandonRequest = s.endRequest .abandoned none := by
      simp only [not_or] at hc
      cases c with
      | activate => exact absurd rfl hc.1
      | ringRestart => exact absurd rfl hc.2
      | deactivate | purge | flush | clearStatus => simp only [State.abandonRequest, h]
    rw [hab, State.endRequest_block h, State.formAck_eq]
    simp only [State.withCm, ControlMonitor.abandoned, hc, false_and, if_false, decide_eq_true_eq]
    cases hr : s.cm.configRead <;> rfl

theorem State.forcedBypass_underWay {s : State} (h : s.cm.bypassUnderWay = true) : s.forcedBypass = s := by
  rw [State.forcedBypass, if_pos h]

theorem State.forcedBypass_none {s : State} (h : s.cm.inProgress = none) :
    s.forcedBypass = State.beginLeaving { s with cm := { s.cm with inProgress := some .link } } := by
  simp only [State.forcedBypass, ControlMonitor.bypassUnderWay, State.abandonRequest, State.endRequest, h, State.withCm]
  rfl

theorem State.forcedBypass_block {s : State} {c : Command} {tag : Byte} (h : s.cm.inProgress = some (.block c tag))
    (hc : c ≠ .deactivate) : s.forcedBypass = State.beginLeaving { s with cm := s.cm.abandoned c tag } := by
  have : ¬ s.cm.bypassUnderWay = true := by
    cases c with
    | deactivate => exact absurd rfl hc
    | activate | purge | flush | ringRestart | clearStatus => simp [ControlMonitor.bypassUnderWay, h]
  rw [State.forcedBypass, if_neg this]
  exact congrArg State.beginLeaving (State.abandonRequest_eq h)

/-- The hold DRAIN_START placed, in force at once where no hold and no request stands against it (R117, R149). -/
theorem State.settleHold_drainStart {s : State} (h : s.cm.placed = some .drainStart) :
    s.settleHold = { s with cm := { s.cm with
      hold := if s.cm.hold = none ∧ s.path = none then some .drainStart else s.cm.hold
      placed := if s.cm.hold = none ∧ s.path = none then none else some .drainStart } } := by
  by_cases hf : s.cm.hold = none ∧ s.path = none
  · obtain ⟨hhold, hpath⟩ := hf
    rw [State.settleHold_in_force h hhold hpath]
    simp only [State.holdInForce, State.withCm, hhold, hpath, and_self, if_true]
  · rw [State.settleHold_of_path_or_hold hf]
    simp only [if_neg hf, ← h]

theorem exec_forceBypass {s : State} (h : s.takesCommand .forceBypass) (hw : s.cm.recognised = []) :
    exec .forceBypass s = .next (s.forcedBypass.responding 0 0 false) := by
  show Host.Outcome.next _ = _
  rw [State.afterWords_none hw, State.onCommand_taken h, State.answerLink_eq_responding]
  rfl

/-! #### The status cleared -/

theorem StickyFlags.statusCleared_changes (f : StickyFlags) : decide (f.statusCleared ≠ f) =
    (f.overrun || f.indexError || f.dataLost || f.dropped || f.configError || f.mirrorFault) := by
  obtain ⟨a, b, c, d, e, m, g, h⟩ := f
  revert a b c d e m g h
  decide

theorem State.setLatch_clear : s.setLatch ⟨none, false⟩ = { s with cm := { s.cm with
    latch := ⟨none, false⟩
    mirror := { s.cm.mirror with
      statusPending := s.cm.mirror.statusPending || s.cm.latch.record.isSome || s.cm.latch.more
      faultPending := s.cm.mirror.faultPending || s.cm.latch.record.isSome } } } := by
  have hlatch : decide ((⟨none, false⟩ : FaultLatch).latched ≠ s.cm.latch.latched) = s.cm.latch.record.isSome := by
    cases h : s.cm.latch.record <;> simp [FaultLatch.latched, h]
  have hmore : decide (false ≠ s.cm.latch.more) = s.cm.latch.more := by cases s.cm.latch.more <;> rfl
  have hrec : decide (none ≠ s.cm.latch.record) = s.cm.latch.record.isSome := by cases s.cm.latch.record <;> simp
  rw [State.setLatch, hlatch, hmore, hrec]
  rfl

theorem State.clearStatus_eq : s.clearStatus = { s with cm := { s.cm with
    flags := ⟨false, s.cm.flags.ringBroken, false, false, false, false, false, s.cm.flags.fatal⟩
    latch := ⟨none, false⟩
    mirror := { s.cm.mirror with
      statusPending := s.cm.mirror.statusPending || (s.cm.flags.overrun || s.cm.flags.indexError || s.cm.flags.dataLost
        || s.cm.flags.dropped || s.cm.flags.configError || s.cm.flags.mirrorFault
        || s.cm.latch.record.isSome || s.cm.latch.more)
      faultPending := s.cm.mirror.faultPending || s.cm.latch.record.isSome } } } := by
  rw [State.clearStatus, State.setLatch_clear, State.setFlags, StickyFlags.statusCleared_changes]
  simp only [State.withCm, StickyFlags.statusCleared, StickyFlags.clear, Bool.or_assoc]

theorem exec_clearFlags {s : State} (h : s.takesCommand .clearFlags) (hw : s.cm.recognised = []) :
    exec .clearFlags s = .next
      (State.responding (s.clearStatus.withLink { s.link with errors := .clear }) 0 0 false) := by
  show Host.Outcome.next _ = _
  rw [State.afterWords_none hw, State.onCommand_taken h, State.answerLink_eq_responding, State.clearStatus_eq]
  rfl

theorem exec_restart {s : State} (h : s.takesCommand .restart) : exec .restart s = .next (s.responding 0 0 true) := by
  show Host.Outcome.next _ = _
  rw [State.onCommand_taken h, State.answerLink_eq_responding]
  rfl

/-- Settles O48: FORCE_BYPASS by the request in progress and the mode, CLEAR_FLAGS and RESTART. -/
theorem theLinkForcesBypassAndClears : Obligations.TheLinkForcesBypassAndClears := by
  refine ⟨fun s h hw => ?_, fun s => ⟨fun h hw => ?_, exec_restart⟩⟩
  · rw [exec_forceBypass h hw]
    refine ⟨fun hin => ?_, fun hin hm => ?_, fun hin hm => ?_, fun c tag hin hc => ?_⟩
    · obtain ⟨tag, hin⟩ | hin | ⟨hm, hin⟩ := hin
      · rw [State.forcedBypass_underWay (by simp only [ControlMonitor.bypassUnderWay, hin])]
      · rw [State.forcedBypass_underWay (by simp only [ControlMonitor.bypassUnderWay, hin])]
      · rw [State.forcedBypass_none hin, State.beginLeaving_bypass (by exact hm), State.endRequest_link rfl, ← hin]
    · rw [State.forcedBypass_none hin, State.beginLeaving_active (by exact hm)]
    · rw [State.forcedBypass_none hin, State.beginLeaving_halted (by exact hm)]
    · rw [State.forcedBypass_block hin hc]
      refine congrArg (fun t : State => Host.Outcome.next (t.responding 0 0 false)) ?_
      split
      case h_1 hm =>
        rw [State.beginLeaving_bypass (by exact hm), State.endRequest_link rfl]
        rfl
      case h_2 hm =>
        rw [State.beginLeaving_active (by exact hm), State.settleHold_drainStart rfl]
        rfl
      case h_3 hm =>
        rw [State.beginLeaving_halted (by exact hm)]
        rfl
      case h_4 hm =>
        rw [State.beginLeaving_draining (by exact hm)]
        rfl
  · rw [exec_clearFlags h hw, State.clearStatus_eq]
    rfl

end Sys2Proof.Machine
end

section
/-! SUPPORT. The two resets (O50, O51): what RSTn abandons and sets, what it stops, and the soft restart that follows
the response of RESTART (R118, R127, R176 to R180). -/

namespace Sys2Proof.Machine

variable {s : State}

/-! #### What an asserted RSTn stops (R179) -/

theorem State.rstnAsserted_of_not_running (h : ¬ s.running) : s.pins.rstnAsserted = true :=
  Bool.eq_true_of_not_eq_false h

theorem State.afterWords_reset (h : ¬ s.running) (act : State → State) : s.afterWords act = act s := by
  rw [State.afterWords, if_pos (s.rstnAsserted_of_not_running h)]

theorem next_afterWords_reset (h : ¬ s.running) {act : State → State} (hact : act s = s) :
    (.next (s.afterWords act) : Host.Outcome State Fault Refusal) = .next s := by
  rw [State.afterWords_reset h, hact]

theorem State.onLink_reset (h : ¬ s.running) (f : Link → Link) : s.onLink f = s :=
  if_pos (s.rstnAsserted_of_not_running h)

theorem State.onCommand_reset (h : ¬ s.running) (c : LinkCommand) (act : State → State) : s.onCommand c act = s :=
  if_pos (s.rstnAsserted_of_not_running h)

theorem State.tryRestart_reset (h : ¬ s.running) : s.tryRestart = s := by
  rw [State.tryRestart]
  split
  next => exact if_neg fun hr => h hr.2
  next => rfl

/-- The rows that RSTn, while asserted, does not stop (log 23). -/
def actsInReset : Instr → Bool
  | .mlctsAsserted | .mlctsDeasserted | .downstreamResponse _ _ _ | .stalePeriodExpiry _ | .rstnRelease _ _ => true
  | _ => false

/-- While RSTn is asserted every other row leaves the state as it is. -/
theorem exec_reset {c : Instr} (h : ¬ s.running) (hwf : c.wf = true) (hc : actsInReset c = false) :
    exec c s = .next s := by
  have hr := s.rstnAsserted_of_not_running h
  cases c with
  | upstreamRequest b =>
    have hacc : ¬ s.acceptHigh = true := by simp [State.acceptHigh, hr]
    exact (if_pos hwf).trans (congrArg _ (if_neg hacc))
  | readAnswerTaken | parserTakeByte | responseSent => exact congrArg _ (if_pos hr)
  | requestTaken =>
    have hmay : ¬ s.mayTake = true := by simp [State.mayTake, hr]
    exact next_afterWords_reset h (if_neg hmay)
  | arbiterGrant | responseTimerExpiry | ageTimerExpiry | rstnAssert => exact next_afterWords_reset h (if_pos hr)
  | requestNone | activate | deactivate | purge | flush | ringRestart | clearStatus | consumedWrite =>
    exact congrArg _ (State.onWord_reset h)
  | refusedCommand code tag => exact (if_pos hwf).trans (congrArg _ (State.onWord_reset h))
  | drainBegin | discard | ringTakeRecord =>
    exact next_afterWords_reset h (if_neg fun ⟨_, _, hg⟩ => h hg)
  | ringReleased => exact next_afterWords_reset h (if_neg fun ⟨_, _, _, _, hg⟩ => h hg)
  | ringRestartCarryOut => exact next_afterWords_reset h (State.tryRestart_reset h)
  | characterArrival | gapTimerExpiry | startBitBegun | mlrxStopLevelRestored | responseByteSent =>
    exact congrArg _ (State.onLink_reset h _)
  | read | writeCbBase | forceBypass | clearFlags =>
    exact next_afterWords_reset h (State.onCommand_reset h _ _)
  | write register d =>
    have hreg : ¬ register = cbBaseRegister := by simpa [Instr.wf] using hwf
    exact (if_neg hreg).trans (congrArg _ (State.onCommand_reset h _ _))
  | restart => exact congrArg _ (State.onCommand_reset h _ _)
  | mlctsAsserted | mlctsDeasserted | downstreamResponse | stalePeriodExpiry | rstnRelease => cases hc

theorem exec_mlctsAsserted_reset (h : ¬ s.running) :
    exec .mlctsAsserted s = .next { s with pins := { s.pins with mlctsAsserted := true } } :=
  congrArg _ (State.onLink_reset (s := s.withPins { s.pins with mlctsAsserted := true }) h _)

theorem exec_stalePeriodExpiry_stopped {i : Fin 8} (h : (s.down.slot i).state = .stale false) :
    exec (.stalePeriodExpiry i) s = .next s := by
  show Host.Outcome.next _ = _
  rw [State.endStale, h]

/-! #### The slots at a reset (R127) -/

theorem Slot.abandon_eq (counting : Bool) (x : Slot) :
    x.abandon counting = ⟨if x.state.issued then .stale counting else x.state, x.owes⟩ := by
  obtain ⟨state, owes⟩ := x
  cases state <;> rfl

theorem Slot.beginStale_eq (x : Slot) : x.beginStale = ⟨match x.state with
    | .stale _ => .stale true
    | y => y, x.owes⟩ := by
  obtain ⟨state, owes⟩ := x
  cases state <;> rfl

theorem DownPort.slot_abandon (counting : Bool) (d : DownPort) (i : Fin 8) :
    (d.abandon counting).slot i =
      ⟨if (d.slot i).state.issued then .stale counting else (d.slot i).state, (d.slot i).owes⟩ :=
  (DownPort.slot_mapSlots d _ i).trans (Slot.abandon_eq counting _)

/-! #### The three reset steps -/

/-- The assertion comes after the words that wait, which leave the port, the link and the pins (log 3). -/
theorem exec_rstnAssert (h : s.running) :
    ∃ u : State, exec .rstnAssert s = .next u.assertRstn ∧ u.down = s.down ∧ u.link = s.link ∧ u.pins = s.pins := by
  obtain ⟨-, -, -, hdown, hlink, hpins, -⟩ := State.takeWords_frame s.cm.recognised s
  refine ⟨s.takeWords s.cm.recognised, ?_, hdown, hlink, hpins⟩
  show Host.Outcome.next _ = _
  rw [State.afterWords, if_neg (show ¬ s.pins.rstnAsserted = true by simp [h])]
  exact congrArg _ (if_neg (by rw [hpins, h]; nofun))

theorem State.assertRstn_line_age (u : State) (i : Fin 64) : (u.assertRstn.line i).age = none := by
  simp only [State.line, State.assertRstn, AccCache.line_mapLines]

theorem exec_rstnRelease (h : ¬ s.running) (cbsel : BitVec 3) (mlrate : BitVec 2) :
    exec (.rstnRelease cbsel mlrate) s = .next (s.releaseRstn cbsel mlrate) :=
  congrArg _ (if_pos (s.rstnAsserted_of_not_running h))

theorem exec_rstnRelease_running (h : s.running) (cbsel : BitVec 3) (mlrate : BitVec 2) :
    exec (.rstnRelease cbsel mlrate) s = .next s :=
  congrArg _ (if_neg (by simp [h]))

/-- Settles O50: the assertion, the release, and the rows that are stopped between them. -/
theorem rstnResetsEveryBlock : Obligations.RstnResetsEveryBlock := by
  intro s cbsel mlrate
  refine ⟨fun h => ?_, fun h => exec_reset h rfl rfl, fun h => exec_rstnRelease_running h cbsel mlrate, fun h => ?_,
    fun c h hwf hma hmd hresp hstale hrel => exec_reset h hwf ?_, fun h => ⟨exec_mlctsAsserted_reset h, rfl⟩,
    fun slot => exec_stalePeriodExpiry_stopped⟩
  · obtain ⟨u, hu, hdown, -, hpins⟩ := exec_rstnAssert h
    refine ⟨u.assertRstn, hu, ?_, fun i => ?_, rfl, rfl, rfl, u.assertRstn_line_age, rfl, rfl⟩
    · rw [← hpins]
      rfl
    · rw [← hdown]
      exact DownPort.slot_abandon false u.down i
  · refine ⟨_, exec_rstnRelease h cbsel mlrate, rfl, fun i => ?_, rfl, rfl, rfl, rfl, rfl, rfl, rfl, rfl⟩
    exact (DownPort.slot_mapSlots s.down _ i).trans (Slot.beginStale_eq _)
  · cases c with
    | mlctsAsserted => exact absurd rfl hma
    | mlctsDeasserted => exact absurd rfl hmd
    | downstreamResponse slot st data => exact absurd rfl (hresp slot st data)
    | stalePeriodExpiry slot => exact absurd rfl (hstale slot)
    | rstnRelease cbsel mlrate => exact absurd rfl (hrel cbsel mlrate)
    | _ => rfl

/-- Settles O51: the response's last byte is sent, and the soft restart follows. -/
theorem theSoftRestartFollowsItsResponse : Obligations.TheSoftRestartFollowsItsResponse := by
  intro s b h hp
  have hexec : exec .responseSent s = .next (State.softRestart { s with link := { s.link with parser := .idle } }) := by
    show Host.Outcome.next _ = _
    rw [if_neg (by simp [h]), State.responseDone, hp]
    rfl
  exact ⟨_, hexec, rfl, rfl, rfl, rfl, rfl, DownPort.slot_abandon true s.down, rfl, rfl, rfl, rfl, rfl, rfl, rfl⟩

end Sys2Proof.Machine
end

section
/-! SUPPORT. The Event Ring Writer's steps (O28, O29, O31, O32): R130 to R136, R139, R140. -/

namespace Sys2Proof.Machine

variable {s : State}

/-! #### Records handed over and taken -/

theorem State.handRecord_inactive (e : EventRecord) (h : s.ring.state = .inactive) : s.handRecord e = s := by
  simp only [State.handRecord, h]

theorem State.handRecord_active (e : EventRecord) (h : s.ring.state ≠ .inactive) : s.handRecord e =
    if s.ring.queue.length < 8 then { s with ring := { s.ring with queue := s.ring.queue ++ [e] } }
    else s.raiseOverrun := by
  cases hs : s.ring.state with
  | inactive => exact absurd hs h
  | active | broken =>
    simp only [State.handRecord, hs]
    rfl

theorem exec_ringTakeRecord (h : s.current) (hp : s.ring.phase = .idle) (hr : s.ring.restart = none) :
    exec .ringTakeRecord s = .next s.takeRecord := by
  show Host.Outcome.next _ = _
  rw [State.afterWords_none h.2, if_pos ⟨hp, hr, h.1⟩]

theorem RingWriter.isFull_iff (r : RingWriter) : r.isFull = true ↔ (r.produced - r.consumed).toNat = 2 ^ r.size :=
  beq_iff_eq

theorem State.takeRecord_taken {e : EventRecord} {rest : List EventRecord} (hq : s.ring.queue = e :: rest)
    (hs : s.ring.state = .active) (hf : ¬ s.ring.isFull = true) : s.takeRecord = { s with ring := { s.ring with
      queue := rest, phase := .record, issued := false, inHand := some e } } := by
  simp only [State.takeRecord, hq, hs, if_neg hf, State.withRing]

theorem State.takeRecord_full {e : EventRecord} {rest : List EventRecord} (hq : s.ring.queue = e :: rest)
    (hs : s.ring.state = .active) (hf : s.ring.isFull = true) : s.takeRecord = s.dropRecords.raiseOverrun := by
  simp only [State.takeRecord, hq, hs, if_pos hf]

theorem State.takeRecord_broken {e : EventRecord} {rest : List EventRecord} (hq : s.ring.queue = e :: rest)
    (hs : s.ring.state = .broken) : s.takeRecord = s.dropRecords := by
  simp only [State.takeRecord, hq, hs]

/-- Settles O28: the three states of the ring, with the queue full or not, and the ring full or not. -/
theorem recordsAreQueuedAndTaken : Obligations.RecordsAreQueuedAndTaken := by
  refine ⟨fun s e => ⟨s.handRecord_inactive e, fun h hl => ?_, fun h hl => ?_⟩, fun s e rest h hq hp hr =>
    ⟨fun hs hf => ?_, fun hs hf => ?_, fun hs => ?_⟩⟩
  · rw [State.handRecord_active e h, if_pos hl]
  · rw [State.handRecord_active e h, if_neg (Nat.not_lt.mpr hl), State.raiseOverrun_eq]
  · rw [exec_ringTakeRecord h hp hr, State.takeRecord_taken hq hs (mt s.ring.isFull_iff.mp hf)]
  · rw [exec_ringTakeRecord h hp hr, State.takeRecord_full hq hs (s.ring.isFull_iff.mpr hf), State.raiseOverrun_eq]
    rfl
  · rw [exec_ringTakeRecord h hp hr, State.takeRecord_broken hq hs]
    rfl

/-! #### The record write and the PRODUCED write -/

theorem State.offer_ring (s : State) : s.offer .ring = s.offerRing := rfl

theorem State.offerRing_record {e : EventRecord} (hi : s.ring.issued = false) (hp : s.ring.phase = .record)
    (he : s.ring.inHand = some e) : s.offerRing = some
      (.write (s.ring.base + BitVec.ofNat 32 (32 * (s.ring.produced.toNat % 2 ^ s.ring.size))) (.burst 4) e.bytes,
        .ringRecord) := by
  simp only [State.offerRing, hi, hp, he, Bool.false_eq_true, if_false]

theorem State.offerRing_index (hi : s.ring.issued = false) (hp : s.ring.phase = .index) : s.offerRing = some
    (.write (s.cm.cbBase + 0x98) (.single .b8) (producedWord s.ring.nextIndex), .ringProduced) := by
  simp only [State.offerRing, hi, hp, Bool.false_eq_true, if_false]

theorem RingWriter.nextIndex_record {r : RingWriter} {e : EventRecord} (h : r.inHand = some e) :
    r.nextIndex = r.produced + 1 := by
  simp only [RingWriter.nextIndex, h]

theorem RingWriter.nextIndex_zero {r : RingWriter} (h : r.inHand = none) : r.nextIndex = 0 := by
  simp only [RingWriter.nextIndex, h]

theorem RingWriter.inFlight_of {r : RingWriter} {phase : RingPhase} (hp : r.phase = phase) (hi : r.issued = true) :
    r.inFlight phase = true := by
  simp [RingWriter.inFlight, hp, hi]

theorem State.complete_ringRecord (hp : s.ring.phase = .record) (hi : s.ring.issued = true) (st : Status)
    (data : Payload) : s.complete .ringRecord st data = match st with
      | .okay => s.withRing { s.ring with phase := .index, issued := false }
      | .error => s.breakRing :=
  if_pos (RingWriter.inFlight_of hp hi)

theorem State.complete_ringProduced (hp : s.ring.phase = .index) (hi : s.ring.issued = true) (st : Status)
    (data : Payload) : s.complete .ringProduced st data = State.zeroWriteDone s.ring.zeroWrite (match st with
      | .okay =>
        s.withRing { s.ring with produced := s.ring.nextIndex, inHand := none, phase := .idle, issued := false }
      | .error => s.breakRing) :=
  if_pos (RingWriter.inFlight_of hp hi)

theorem State.zeroWriteDone_none : s.zeroWriteDone none = s.withRing { s.ring with zeroWrite := none } := by
  simp only [State.zeroWriteDone]

theorem State.breakRing_eq : s.breakRing = { s with
    ring := { s.ring with state := .broken, inHand := none, phase := .idle, issued := false }
    cm := { s.cm with
      flags := { s.cm.flags with ringBroken := true }
      mirror := { s.cm.mirror with statusPending := s.cm.mirror.statusPending || !s.cm.flags.ringBroken } } } :=
  State.raiseRingBroken_eq _

/-- Settles O29: the phases RECORD and INDEX, offered and completed. -/
theorem recordsAreWrittenThenAnnounced : Obligations.RecordsAreWrittenThenAnnounced := by
  intro s e data he hz
  refine ⟨fun hp hi => s.offerRing_record hi hp he, fun hp hi => ?_, fun hp hi => ⟨?_, ?_⟩, fun hp hi => ⟨?_, ?_⟩⟩
  · rw [← RingWriter.nextIndex_record he]
    exact s.offerRing_index hi hp
  · exact s.complete_ringRecord hp hi .okay data
  · exact (s.complete_ringRecord hp hi .error data).trans s.breakRing_eq
  · rw [s.complete_ringProduced hp hi .okay data, hz, State.zeroWriteDone_none, RingWriter.nextIndex_record he]
    simp only [State.withRing, ← hz]
  · rw [s.complete_ringProduced hp hi .error data, hz, State.zeroWriteDone_none, State.breakRing_eq]
    simp only [State.withRing, ← hz]

/-! #### A restart and the release -/

theorem StickyFlags.restart_changes (f : StickyFlags) :
    decide ({ f with ringBroken := false, overrun := false } ≠ f) = (f.ringBroken || f.overrun) := by
  obtain ⟨a, b, c, d, e, m, g, h⟩ := f
  revert a b c d e m g h
  decide

theorem State.carryOutRestart_eq (base : Addr) (size : Nat) : s.carryOutRestart base size = { s with
    ring := { s.ring with
      base := base, size := size, produced := 0, consumed := 0, state := .active, restart := none, phase := .index,
      issued := false, inHand := none, zeroWrite := some .restart }
    cm := { s.cm with
      flags := { s.cm.flags with ringBroken := false, overrun := false }
      mirror := { s.cm.mirror with
        statusPending := s.cm.mirror.statusPending || s.cm.flags.ringBroken || s.cm.flags.overrun } } } := by
  rw [Bool.or_assoc, ← StickyFlags.restart_changes]
  rfl

theorem producedWord_zero : producedWord 0 = [0, 0, 0, 0, 0, 0, 0, 0] := by decide

/-- Settles O31: the pending restart is carried out, and its PRODUCED write carries 0. -/
theorem aRestartIsCarriedOut : Obligations.ARestartIsCarriedOut := by
  intro s base size h hr hp
  have hexec : exec .ringRestartCarryOut s = .next (s.carryOutRestart base size) := by
    show Host.Outcome.next _ = _
    rw [State.afterWords_none h.2, State.tryRestart, hr]
    exact congrArg _ (if_pos ⟨hp, h.1⟩)
  rw [State.carryOutRestart_eq] at hexec
  refine ⟨_, hexec, rfl, rfl, rfl, ?_⟩
  rw [State.offer_ring, State.offerRing_index rfl rfl, RingWriter.nextIndex_zero rfl, producedWord_zero]

theorem exec_ringReleased (h : s.current) (hl : s.cm.leaving = .releasing) (hr : s.ring.restart = none)
    (hq : s.ring.queue = []) (hp : s.ring.phase = .idle) : exec .ringReleased s = .next s.releaseRing := by
  show Host.Outcome.next _ = _
  rw [State.afterWords_none h.2, if_pos ⟨hl, hr, hq, hp, h.1⟩]

/-- What a request's end leaves of the Control Monitor. -/
theorem State.endRequest_cm_frame (outcome : AckOutcome) :
    (s.endRequest outcome none).cm.mode = s.cm.mode ∧ (s.endRequest outcome none).cm.fatalCause = s.cm.fatalCause ∧
    (s.endRequest outcome none).cm.flags.fatal = s.cm.flags.fatal ∧
    (s.endRequest outcome none).cm.leaving = s.cm.leaving ∧ (s.endRequest outcome none).cm.cbBase = s.cm.cbBase ∧
    (s.endRequest outcome none).cm.latch = s.cm.latch ∧ (s.endRequest outcome none).cm.hold = s.cm.hold ∧
    (s.endRequest outcome none).cm.configCode = s.cm.configCode ∧
    s.endRequest outcome none = { s with cm := (s.endRequest outcome none).cm } := by
  cases h : s.cm.inProgress with
  | none => simp [State.endRequest_none h]
  | some x =>
    cases x with
    | link => simp [State.endRequest_link h]
    | block c tag => simp [State.endRequest_block h, State.formAck_eq]

/-- The state in which the release of the ring ends the request in progress (R149, step 6; R150, steps 4 and 5). -/
def State.released (s : State) : State :=
  { s with
    ring := { s.ring with state := .inactive, attnEnable := false }
    cm := { s.cm with
      mode := .bypass
      fatalCause := .noCause
      leaving := .stay
      flags := { s.cm.flags with fatal := false }
      mirror := { s.cm.mirror with
        modePending := s.cm.mirror.modePending || decide (Mode.bypass ≠ s.cm.mode)
          || decide (FatalCause.noCause ≠ s.cm.fatalCause)
        statusPending := s.cm.mirror.statusPending || decide ({ s.cm.flags with fatal := false } ≠ s.cm.flags) } } }

theorem State.releaseRing_eq : s.releaseRing = s.released.endRequest .done none := rfl

/-- Settles O32: the request in progress, if any, ends in the state released. -/
theorem theReleaseEndsInBypass : Obligations.TheReleaseEndsInBypass := by
  intro s h hl hr hq hp
  obtain ⟨hmode, hcause, hfatal, hleaving, hcb, hlatch, hhold, hcode, hrest⟩ :=
    s.released.endRequest_cm_frame .done
  refine ⟨s.released.endRequest .done none, ?_, ?_, ?_, hmode, hcause, hfatal, hleaving, hcb, hlatch, hhold, hcode,
    fun tag hin => ?_, fun hin => ?_⟩
  · rw [exec_ringReleased h hl hr hq hp, State.releaseRing_eq]
  · rw [hrest]
    rfl
  · rw [hrest]
    rfl
  · rw [State.endRequest_block (s := s.released) hin, State.formAck_eq]
    exact ⟨rfl, rfl, fun hlen => if_neg (Nat.not_le.mpr hlen)⟩
  · rw [State.endRequest_link (s := s.released) hin]
    exact ⟨rfl, rfl⟩

end Sys2Proof.Machine
end

section
/-! SUPPORT. The REQUEST words (O34 to O37): refused, or taken and carried out (R151, R153, R155 to R159). -/

namespace Sys2Proof.Machine

variable {s : State}

/-! #### Refused -/

theorem State.onRequest_busy {c : Command} (tag : Byte) (h : s.cm.inProgress ≠ none) :
    s.onRequest c tag = s.formAck ⟨c.code, tag, some .refusedBusy, 0⟩ :=
  if_pos (Option.isSome_iff_ne_none.mpr h)

theorem State.onRequest_mode {c : Command} (tag : Byte) (h : s.cm.inProgress = none)
    (hm : c.takenIn s.cm.mode = false) : s.onRequest c tag = s.formAck ⟨c.code, tag, some .refusedMode, 0⟩ := by
  rw [State.onRequest, if_neg (by simp [h]), if_pos (by simp [hm])]
  rfl

/-- The modes that the table refuses a command in (R151, step 3). -/
theorem Command.takenIn_eq_false {c : Command} {m : Mode}
    (h : c = .activate ∧ m ≠ .bypass ∨ c = .deactivate ∧ m = .draining ∨
      c ∈ [.purge, .flush, .ringRestart] ∧ m ≠ .active) : c.takenIn m = false := by
  revert h
  cases c <;> cases m <;> decide

theorem exec_instr_taken {c : Command} {tag : Byte} (h : s.takesWord (.request c.code tag)) :
    exec (c.instr tag) s = .next (s.wordTaken.onRequest c tag) := by
  rw [exec_instr, State.onWord_taken h, State.takeWord_code]

/-- A known command's row, taken with no request in progress and in a mode the table takes it in. -/
theorem exec_instr_carryOut {c : Command} {tag : Byte} (h : s.takesWord (.request c.code tag))
    (hin : s.cm.inProgress = none) (hm : c.takenIn s.cm.mode = true) :
    exec (c.instr tag) s = .next (c.carryOut
      { s.wordTaken with cm := { s.wordTaken.cm with inProgress := some (.block c tag) } }) := by
  rw [exec_instr_taken h, State.onRequest_taken (by exact hin) (by exact hm)]

/-- The codes from 7 on name no command. -/
theorem Command.ofCode_unknown {code : Byte} (hc : 7 ≤ code.toNat) : Command.ofCode code = none := by
  rw [Command.ofCode]
  split
  case h_7 => rfl
  all_goals omega

theorem exec_refusedCommand {code tag : Byte} (h : s.takesWord (.request code tag)) (hc : 7 ≤ code.toNat) :
    exec (.refusedCommand code tag) s = .next (s.wordTaken.formAck ⟨code, tag, some .refusedCommand, 0⟩) := by
  have hzero : ¬ code = 0 := by bv_omega
  refine (if_pos (decide_eq_true hc)).trans ?_
  rw [State.onWord_taken h, State.takeWord, if_neg hzero, Command.ofCode_unknown hc]
  rfl

/-- Settles O34: the code NONE, an unknown code, and a known command refused as busy or for its mode. -/
theorem requestsAreRefusedInOrder : Obligations.RequestsAreRefusedInOrder := by
  intro s c code tag
  refine ⟨fun h => congrArg _ (State.onWord_taken h), fun h hc => exec_refusedCommand h hc, fun h hin => ?_,
    fun h hin hm => ?_, fun h => ?_⟩
  · rw [exec_instr_taken h, State.onRequest_busy tag (by simpa using hin)]
  · rw [exec_instr_taken h, State.onRequest_mode tag (by exact hin) (by exact Command.takenIn_eq_false hm)]
  · rw [exec_instr, State.onWord_reset h]

/-! #### Taken -/

theorem State.placeHold_in_force {h : Hold} (hhold : s.cm.hold = none) (hpath : s.path = none) :
    s.placeHold h = s.holdInForce h := by
  rw [State.placeHold, State.settleHold_in_force (by rfl) (by exact hhold) (by exact hpath)]
  rfl

theorem State.placeHold_waits {h : Hold} (hw : ¬ (s.cm.hold = none ∧ s.path = none)) :
    s.placeHold h = { s with cm := { s.cm with placed := some h } } :=
  State.settleHold_of_path_or_hold (s := s.withCm { s.cm with placed := some h }) hw

/-- Settles O35: a loading hold placed, in force at once or waiting. -/
theorem loadsPlaceTheirHold : Obligations.LoadsPlaceTheirHold := by
  intro s c h tag hc hword hin
  have hm : c.takenIn s.cm.mode = true := by
    obtain ⟨rfl, -, hm⟩ | ⟨rfl, -, hm⟩ := hc <;> rw [hm] <;> rfl
  have hcarry (t : State) : c.carryOut t = t.placeHold h := by
    obtain ⟨rfl, rfl, -⟩ | ⟨rfl, rfl, -⟩ := hc <;> rfl
  have hloads (t : State) : t.holdInForce h =
      { t with cm := { t.cm with hold := some h, placed := none, configRead := .offered } } := by
    obtain ⟨-, rfl, -⟩ | ⟨-, rfl, -⟩ := hc <;> rfl
  rw [exec_instr_carryOut hword hin hm, hcarry]
  refine ⟨fun hpath hhold => ⟨?_, ?_⟩, fun hw => ?_⟩
  · rw [State.placeHold_in_force (by exact hhold) (by exact hpath), hloads]
  · simp only [State.offer, State.offerPath, State.wordTaken, hpath]
  · rw [State.placeHold_waits (by exact fun ⟨hhold, hpath⟩ => hw.elim (· hpath) (· hhold))]

/-- Settles O36: the way to BYPASS begun in each of the modes that takes DEACTIVATE. -/
theorem deactivateActsByMode : Obligations.DeactivateActsByMode := by
  intro s tag hword hin
  have carry (hm : Command.deactivate.takenIn s.cm.mode = true) := exec_instr_carryOut hword hin hm
  refine ⟨fun hm => (carry (by rw [hm]; rfl)).trans ?_, fun hm => (carry (by rw [hm]; rfl)).trans ?_,
    fun hm => (carry (by rw [hm]; rfl)).trans ?_⟩
  · rw [Command.carryOut, State.beginLeaving_bypass (by exact hm), State.endRequest_block rfl]
    simp only [← hin]
    rfl
  · rw [Command.carryOut, State.beginLeaving_active (by exact hm)]
    rfl
  · rw [Command.carryOut, State.beginLeaving_halted (by exact hm)]

/-- Settles O37: PURGE and CLEAR_STATUS carried out, and ended with DONE. -/
theorem purgeAndClearStatusAreDoneAtOnce : Obligations.PurgeAndClearStatusAreDoneAtOnce := by
  intro s tag hin
  refine ⟨fun hword hm => ?_, fun hword => ?_⟩
  · refine (exec_instr_carryOut (c := .purge) hword hin (by rw [hm]; rfl)).trans ?_
    rw [Command.carryOut, State.endRequest_block rfl]
    simp only [State.withWindows, State.wordTaken, ← hin]
    rfl
  · refine (exec_instr_carryOut (c := .clearStatus) hword hin (by cases s.cm.mode <;> rfl)).trans ?_
    rw [Command.carryOut, State.clearStatus_eq, State.endRequest_block rfl]
    simp only [State.wordTaken, ← hin]
    rfl

end Sys2Proof.Machine
end

section
/-! SUPPORT. The mirror's words (O43): their order, and the formats of spec/11 they carry (11.5, 11.6, R163). -/

namespace Sys2Proof.Machine

variable {s : State}

/-! #### Words made of single bits -/

theorem testBit_foldr_bit (bits : List Bool) (i : Nat) : (bits.foldr Nat.bit 0).testBit i = bits[i]?.getD false := by
  induction bits generalizing i with
  | nil => simp
  | cons b bits ih =>
    cases i with
    | zero => simp
    | succ i => rw [List.foldr_cons, Nat.testBit_bit_succ, ih i, List.getElem?_cons_succ]

theorem bitAt_eq (b : Bool) (i : Nat) : bitAt b i = 2 ^ i * b.toNat := by
  cases b <;> simp [bitAt]

theorem flagsWord_eq_foldr (f : StickyFlags) (l : FaultLatch) : flagsWord f l =
    [f.overrun, f.ringBroken, f.indexError, f.dataLost, f.dropped, f.configError, f.mirrorFault, f.fatal,
      l.record.isSome, l.more, false, false, false, false, false, f.anyError].foldr Nat.bit 0 := by
  simp only [flagsWord, bitAt_eq, FaultLatch.latched, List.foldr, Nat.bit_val, Bool.toNat_false]
  omega

/-! #### The bytes of an event record -/

theorem leBytes_eq_map (n v : Nat) : leBytes n v = (List.range n).map fun k => BitVec.ofNat 8 (v / 2 ^ (8 * k)) := by
  apply List.ext_getElem?
  intro k
  by_cases hk : k < n
  · rw [leBytes_getElem? n v k hk, List.getElem?_map, List.getElem?_range hk, Option.map_some, Nat.pow_mul]
  · rw [List.getElem?_eq_none (by simpa using Nat.le_of_not_lt hk),
      List.getElem?_eq_none (by simpa using Nat.le_of_not_lt hk)]

theorem Access.byte_getLsbD (a : Access) (i : Nat) : a.byte.getLsbD i = (decide (i < 8) &&
    decide (((if a.kind = .write then 1 else 0) + (if a.priv = .sup then 2 else 0)
      + (if shapeIsBurst a.shape then 4 else 0) + 16 * shapeLengthCode a.shape) / 2 ^ i % 2 = 1)) := by
  rw [Access.byte, BitVec.getLsbD_ofNat, Nat.testBit_eq_decide_div_mod_eq]

theorem Access.byte_kind (a : Access) : a.byte.getLsbD 0 = true ↔ a.kind = .write := by
  rw [Access.byte_getLsbD]
  cases a.kind <;> cases a.priv <;> cases shapeIsBurst a.shape <;> simp <;> omega

theorem Access.byte_priv (a : Access) : a.byte.getLsbD 1 = true ↔ a.priv = .sup := by
  rw [Access.byte_getLsbD]
  cases a.kind <;> cases a.priv <;> cases shapeIsBurst a.shape <;> simp <;> omega

theorem shapeLengthCode_lt (shape : Shape) : shapeLengthCode shape < 16 := by
  cases shape with
  | single size => cases size <;> decide
  | burst beats => exact Nat.mod_lt _ (by decide)

theorem Access.byte_length (a : Access) : a.byte.toNat / 16 = shapeLengthCode a.shape := by
  have := shapeLengthCode_lt a.shape
  rw [Access.byte, BitVec.toNat_ofNat]
  split <;> split <;> split <;> omega

theorem Access.byte_burst (a : Access) : a.byte.getLsbD 2 = shapeIsBurst a.shape := by
  rw [Access.byte_getLsbD]
  cases a.kind <;> cases a.priv <;> cases shapeIsBurst a.shape <;> simp <;> omega

theorem Access.byte_reserved (a : Access) : a.byte.getLsbD 3 = false := by
  rw [Access.byte_getLsbD]
  cases a.kind <;> cases a.priv <;> cases shapeIsBurst a.shape <;> simp <;> omega

/-! #### The order of the words -/

theorem State.offer_mirror : s.offer .mirror = s.cm.mirror.next.map fun w => (s.mirrorWrite w, .mirror) := rfl

theorem State.requesterIssued_mirror {w : MirrorWord} (q : MemRequest) (h : s.cm.mirror.next = some w) :
    (s.requesterIssued q .mirror).cm.mirror = s.cm.mirror.issue w := by
  simp only [State.requesterIssued, h, State.withCm]

/-- The word next in order is offered with its value, and its issue is recorded. -/
theorem State.mirror_word {w : MirrorWord} (q : MemRequest) (h : s.cm.mirror.next = some w) :
    s.offer .mirror = some (s.mirrorWrite w, .mirror) ∧
      (s.requesterIssued q .mirror).cm.mirror = s.cm.mirror.issue w :=
  ⟨by rw [State.offer_mirror, h, Option.map_some], State.requesterIssued_mirror q h⟩

theorem modeStatusWord_eq (m : Mode) (c : FatalCause) :
    modeStatusWord m c = [BitVec.ofNat 8 m.code, BitVec.ofNat 8 c.code, 0, 0, 0, 0, 0, 0] := by
  cases m <;> cases c <;> decide

/-- Settles O43: the codes, the order of the words, the flag word, and the bytes of an event record. -/
theorem theMirrorWritesInItsOrder : Obligations.TheMirrorWritesInItsOrder := by
  refine ⟨⟨rfl, rfl, rfl, rfl, rfl⟩, fun s q => ⟨fun hf => ?_, fun hf hm => ?_, fun hf hm hs => ?_,
    fun hf hm hs hl => ?_, fun hf hm hs hl hp => ?_, fun a rest hf hm hs hl hp ha => ?_⟩, fun f l i => ?_,
    fun e more a => ⟨rfl, rfl, ?_, a.byte_kind, a.byte_priv, fun size hsize => ⟨?_, a.byte_reserved, ?_⟩,
      fun beats hbeats hle => ⟨?_, a.byte_reserved, ?_⟩⟩⟩
  · rw [State.offer_mirror, Mirror.next, if_pos hf, Option.map_none]
  · rw [← modeStatusWord_eq]
    exact State.mirror_word q (w := .modeStatus) (by simp [Mirror.next, hf, hm])
  · exact State.mirror_word q (w := .status) (by simp [Mirror.next, hf, hm, hs])
  · exact State.mirror_word q (w := .lastFault) (by simp [Mirror.next, hf, hm, hs, hl])
  · exact State.mirror_word q (w := .produced) (by simp [Mirror.next, hf, hm, hs, hl, hp])
  · obtain ⟨hoffer, hissue⟩ := State.mirror_word (s := s) q (w := .ack a)
      (by simp [Mirror.next, hf, hm, hs, hl, hp, ha])
    refine ⟨hoffer, hissue.trans ?_⟩
    rw [Mirror.issue, ha, List.tail_cons]
  · rw [flagsWord_eq_foldr, testBit_foldr_bit]
    rfl
  · have hmaster : (if e.backing.isSome = true then 128 else 0) = 128 * e.backing.isSome.toNat := by
      cases e.backing.isSome <;> rfl
    simp only [EventRecord.bytes, Record.bytes, leBytes_eq_map, hmaster]
    cases e.cause with
    | none => cases e.kind <;> rfl
    | some cause => cases e.kind <;> cases cause <;> rfl
  · rw [a.byte_burst, hsize, shapeIsBurst]
  · rw [a.byte_length, hsize]
    cases size <;> rfl
  · rw [a.byte_burst, hbeats, shapeIsBurst]
  · rw [a.byte_length, hbeats]
    exact Nat.mod_eq_of_lt (by omega)

end Sys2Proof.Machine
end

section
/-! SUPPORT. The configuration read (O41, O42): ACTIVATE and RING_RESTART, validated and loaded (R138, R139, R153,
R154, R158). -/

namespace Sys2Proof.Machine

variable {s : State}

/-! #### A request that ends with a validation code -/

theorem State.endRequest_block_code {c : Command} {tag : Byte} (h : s.cm.inProgress = some (.block c tag))
    (outcome : AckOutcome) (code : Option ConfigCode) : s.endRequest outcome code =
      State.formAck ⟨c.code, tag, some outcome, ackDetail code⟩ { s with cm := { s.cm with inProgress := none } } := by
  simp only [State.endRequest, h]
  rfl

theorem State.configFailed_eq {c : Command} {tag : Byte} (h : s.cm.inProgress = some (.block c tag))
    (code : ConfigCode) : s.configFailed code =
      State.formAck ⟨c.code, tag, some .configError, BitVec.ofNat 8 code.number⟩ { s with cm := { s.cm with
        inProgress := none
        configCode := some code
        flags := { s.cm.flags with configError := true }
        mirror := { s.cm.mirror with
          statusPending := s.cm.mirror.statusPending || !s.cm.flags.configError } } } := by
  rw [State.configFailed, State.raiseConfigError_eq, State.endRequest_block_code (by exact h)]
  rfl

/-! #### The completion of the configuration read -/

theorem State.activate_failed {st : Status} {data : Payload} {code : ConfigCode}
    (hh : s.cm.hold = some .activateLoad) (hr : s.cm.configRead = .inFlight false)
    (hv : validateActivate s.cm.cbBase st (ConfigArea.decode data) = some code) : s.complete .configRead st data =
      State.configFailed code (State.releaseHold { s with cm := { s.cm with configRead := .idle } }) := by
  simp only [State.complete, State.completeConfigRead, hr, hh, hv, State.withCm]

theorem State.activate_valid {st : Status} {data : Payload}
    (hh : s.cm.hold = some .activateLoad) (hr : s.cm.configRead = .inFlight false) (hm : s.cm.mode = .bypass)
    (hv : validateActivate s.cm.cbBase st (ConfigArea.decode data) = none) : s.complete .configRead st data =
      State.activateLoaded (ConfigArea.decode data) { s with cm := { s.cm with configRead := .idle } } := by
  simp only [State.complete, State.completeConfigRead, hr, hh, hv, hm, if_true, State.withCm]

theorem State.restart_failed {st : Status} {data : Payload} {code : ConfigCode}
    (hh : s.cm.hold = some .ringLoad) (hr : s.cm.configRead = .inFlight false)
    (hv : validateRestart s.cm.cbBase s.cm.config st (ConfigArea.decode data) = some code) :
    s.complete .configRead st data =
      State.configFailed code (State.releaseHold { s with cm := { s.cm with configRead := .idle } }) := by
  simp only [State.complete, State.completeConfigRead, hr, hh, hv, State.withCm]

theorem State.restart_valid {st : Status} {data : Payload}
    (hh : s.cm.hold = some .ringLoad) (hr : s.cm.configRead = .inFlight false)
    (hv : validateRestart s.cm.cbBase s.cm.config st (ConfigArea.decode data) = none) :
    s.complete .configRead st data = State.restartLoaded (ConfigArea.decode data)
      (State.releaseHold { s with cm := { s.cm with configRead := .idle } }) := by
  simp only [State.complete, State.completeConfigRead, hr, hh, hv, State.withCm]

theorem State.load_abandoned (st : Status) (data : Payload) (hr : s.cm.configRead = .inFlight true) :
    s.complete .configRead st data = State.releaseHold { s with cm := { s.cm with configRead := .idle } } := by
  simp only [State.complete, State.completeConfigRead, hr, State.withCm]

theorem State.releaseHold_idle (h : s.cm.placed = none) :
    State.releaseHold { s with cm := { s.cm with configRead := .idle } } =
      { s with cm := { s.cm with hold := none, configRead := .idle } } :=
  State.releaseHold_of_none h

theorem StickyFlags.ringBroken_clears (f : StickyFlags) :
    decide ({ f with ringBroken := false } ≠ f) = f.ringBroken := by
  obtain ⟨a, b, c, d, e, m, g, h⟩ := f
  cases b <;> simp

theorem State.startRing_eq (a : ConfigArea) : s.startRing a = { s with
    ring := { s.ring with
      state := .active, base := a.ringBase, size := a.ringSize, attnEnable := a.attnEnable, produced := 0,
      consumed := 0, phase := .index, issued := false, inHand := none, zeroWrite := some .activate }
    cm := { s.cm with
      flags := { s.cm.flags with ringBroken := false }
      mirror := { s.cm.mirror with
        statusPending := s.cm.mirror.statusPending || s.cm.flags.ringBroken
        producedPending := false } } } := by
  rw [← StickyFlags.ringBroken_clears]
  rfl

theorem State.setMode_active (h : s.cm.mode = .bypass) : s.setMode .active .noCause = { s with cm := { s.cm with
    mode := .active, fatalCause := .noCause, mirror := { s.cm.mirror with modePending := true } } } := by
  simp [State.setMode, State.withCm, h]

theorem State.activateLoaded_eq (a : ConfigArea) (hp : s.cm.placed = none) (hm : s.cm.mode = .bypass) :
    s.activateLoaded a = { s with
      acc := { s.acc with ageInterval := a.ageInterval }
      ring := { s.ring with
        state := .active, base := a.ringBase, size := a.ringSize, attnEnable := a.attnEnable, produced := 0,
        consumed := 0, phase := .index, issued := false, inHand := none, zeroWrite := some .activate }
      cm := { s.cm with
        mode := .active
        fatalCause := .noCause
        hold := none
        config := ⟨a.spanBase, a.spanSize, a.dirBase, a.groupMap⟩
        configCode := none
        flags := { s.cm.flags with ringBroken := false }
        mirror := { s.cm.mirror with
          modePending := true
          statusPending := s.cm.mirror.statusPending || s.cm.flags.ringBroken
          producedPending := false } } } := by
  rw [State.activateLoaded, State.startRing_eq, State.setMode_active (by exact hm),
    State.releaseHold_of_none (by exact hp)]
  rfl

/-! #### The PRODUCED write of 0 -/

theorem State.zeroWriteDone_activate {tag : Byte} (h : s.cm.inProgress = some (.block .activate tag)) :
    s.zeroWriteDone (some .activate) = State.formAck ⟨1, tag, some .done, 0⟩
      { s with ring := { s.ring with zeroWrite := none }, cm := { s.cm with inProgress := none } } := by
  simp only [State.zeroWriteDone, h]
  exact State.endRequest_block (s := { s with ring := { s.ring with zeroWrite := none } }) h .done

theorem State.zeroWriteDone_restart {tag : Byte} (h : s.cm.inProgress = some (.block .ringRestart tag)) :
    s.zeroWriteDone (some .restart) = State.formAck ⟨5, tag, some .done, 0⟩
      { s with ring := { s.ring with zeroWrite := none }, cm := { s.cm with inProgress := none } } := by
  simp only [State.zeroWriteDone, h]
  exact State.endRequest_block (s := { s with ring := { s.ring with zeroWrite := none } }) h .done

/-- The fields of the configuration area (11.6). -/
theorem ConfigArea.decode_fields (data : Payload) :
    let a := ConfigArea.decode data
    let field (offset bits : Nat) : Nat := data.toNat / 2 ^ (8 * offset) % 2 ^ bits
    a.spanBase.toNat = field 0x00 32 ∧ a.spanSize = field 0x04 8 ∧ a.dirBase.toNat = field 0x08 32 ∧
    a.ringBase.toNat = field 0x10 32 ∧ a.ringSize = field 0x14 8 ∧ a.ageInterval = field 0x18 16 ∧
    a.groupMap.toNat = field 0x1C 32 ∧ (a.attnEnable = true ↔ field 0x20 1 = 1) := by
  simp only [ConfigArea.decode, BitVec.extractLsb'_toNat, Nat.shiftRight_eq_div_pow, true_and, Nat.mul_zero]
  rw [← BitVec.testBit_toNat, Nat.testBit_eq_decide_div_mod_eq, decide_eq_true_eq, pow_one]

/-- Settles O41: the verdict on the configuration area, and the PRODUCED write of 0 with either status. -/
theorem activateLoadsTheConfiguration : Obligations.ActivateLoadsTheConfiguration := by
  refine ⟨ConfigArea.decode_fields, fun s tag st data hin hp => ⟨fun code hh hr hv => ?_, fun hh hr hm hv => ?_,
    fun hz hph hi hhand => ⟨?_, ?_⟩⟩⟩
  · rw [State.activate_failed hh hr hv, State.releaseHold_idle hp]
    rw [State.configFailed_eq (by exact hin)]
    rfl
  · exact (State.activate_valid hh hr hm hv).trans (State.activateLoaded_eq _ hp hm)
  · rw [s.complete_ringProduced hph hi .okay data, hz, State.zeroWriteDone_activate (by exact hin),
      RingWriter.nextIndex_zero hhand]
    simp only [State.withRing, ← hhand]
  · rw [s.complete_ringProduced hph hi .error data, hz, State.breakRing_eq, State.zeroWriteDone_activate (by exact hin),
      State.formAck_eq]
    exact ⟨rfl, rfl, rfl, rfl⟩

/-- Settles O42: the verdict for a restart, the PRODUCED write of 0, and a read whose request was abandoned. -/
theorem ringRestartLoadsBaseAndSize : Obligations.RingRestartLoadsBaseAndSize := by
  refine ⟨fun s tag st data hin hp => ⟨fun code hh hr hv => ?_, fun hh hr hv => ?_, fun hz hph hi => ?_⟩,
    fun s h st data hr hh => ⟨fun hp => ?_, fun hp hpath => ?_⟩⟩
  · rw [State.restart_failed hh hr hv, State.releaseHold_idle hp]
    rw [State.configFailed_eq (by exact hin)]
    rfl
  · rw [State.restart_valid hh hr hv, State.releaseHold_idle hp]
    rfl
  · rw [s.complete_ringProduced hph hi st data, hz]
    cases st with
    | okay =>
      rw [State.zeroWriteDone_restart (by exact hin), State.formAck_eq]
      exact ⟨rfl, rfl⟩
    | error =>
      rw [State.breakRing_eq, State.zeroWriteDone_restart (by exact hin), State.formAck_eq]
      exact ⟨rfl, rfl⟩
  · rw [State.load_abandoned st data hr, State.releaseHold_idle hp]
  · rw [State.load_abandoned st data hr, State.releaseHold,
      State.settleHold_in_force (by exact hp) (by rfl) (by exact hpath)]
    rfl

end Sys2Proof.Machine
end

section
/-! SUPPORT. The walk and the Window Cache (O11, O13): R36 to R40, R50 to R53, R58. -/

namespace Sys2Proof.Machine

variable {s : State} {r : Request}

/-! #### The request whose walk is made -/

theorem State.forWalk_walking (h : s.path = some ⟨r, .walking⟩) (f : Request → State → State) :
    s.forWalk f = f r s := by
  simp only [State.forWalk, h]

theorem State.complete_dirRead (h : s.path = some ⟨r, .walking⟩) (st : Status) (data : Payload) :
    s.complete .dirRead st data = s.completeDirRead r st data := s.forWalk_walking h _

theorem State.complete_descRead (h : s.path = some ⟨r, .walking⟩) (st : Status) (data : Payload) :
    s.complete .descRead st data = s.completeDescRead r st data := s.forWalk_walking h _

theorem State.offer_walking (h : s.path = some ⟨r, .walking⟩) : s.offer .path = s.offerWalk := by
  simp only [State.offer, State.offerPath, h]

theorem State.offerWalk_unissued (h : s.walker.issued = false) : s.offerWalk = match s.walker.phase with
    | .idle => none
    | .dirRead => some (.read s.walker.dirAddr (.single .b8), .dirRead)
    | .descRead => some (.read s.walker.descAddr (.burst 2), .descRead)
    | .locked => some (.lockedRead s.walker.descAddr, .lockedRead)
    | .unlocking => some (.unlockingWrite s.walker.descAddr (leBytes 16
        (if s.walker.verdict.isSome then s.walker.descRead
          else descMarked s.walker.needChanged s.walker.descRead).toNat), .unlockingWrite)
    | .releasing => some (.release s.walker.descAddr, .release) := by
  rw [State.offerWalk]
  exact if_neg (by simp [h])

/-! #### The outcomes of the two reads -/

theorem State.completeDirRead_absent {data : Payload} (h : (data.setWidth 64).getLsbD 0 = false) :
    s.completeDirRead r .okay data = s.walkFault r ⟨.dirAbsent, s.walker.window, none⟩ :=
  if_pos (show (!(data.setWidth 64).getLsbD 0) = true by rw [h]; rfl)

theorem State.completeDirRead_malformed {data : Payload} (h : (data.setWidth 64).getLsbD 0 = true)
    (hd : dirRightsOf s.cm.config (.decode (data.setWidth 64)) = none) :
    s.completeDirRead r .okay data = s.walkFault r ⟨.malformed, s.walker.window, none⟩ := by
  refine (if_neg (show ¬ (!(data.setWidth 64).getLsbD 0) = true by rw [h]; nofun)).trans ?_
  rw [hd]

theorem State.completeDirRead_present {data : Payload} {rights : Rights} (h : (data.setWidth 64).getLsbD 0 = true)
    (hd : dirRightsOf s.cm.config (.decode (data.setWidth 64)) = some rights) :
    s.completeDirRead r .okay data = s.withWalker { s.walker with
      phase := .descRead
      issued := false
      dirEntry := data.setWidth 64
      dirRights := rights
      descAddr := descAddrOf (DirFields.decode (data.setWidth 64)).tableBase s.walker.window } := by
  refine (if_neg (show ¬ (!(data.setWidth 64).getLsbD 0) = true by rw [h]; nofun)).trans ?_
  rw [hd]

theorem descAddrOf_decode (w : BitVec 64) (window : Nat) : descAddrOf (DirFields.decode w).tableBase window =
    BitVec.ofNat 32 ((w.extractLsb' 32 21).toNat * 2048 + 16 * (window % 128)) := by
  rw [descAddrOf, BitVec.ofNat_add]
  congr 1
  apply BitVec.eq_of_toNat_eq
  rw [BitVec.toNat_ofNat, ← unitAddr_toNat, Nat.mod_eq_of_lt (BitVec.isLt _)]
  rfl

theorem State.completeDescRead_error {data : Payload} {cause : Cause}
    (h : descriptorOf s.cm.config (data.setWidth 128) = .error cause) :
    s.completeDescRead r .okay data = s.walkFault r ⟨cause, s.walker.window, none⟩ := by
  simp only [State.completeDescRead, h]

theorem State.completeDescRead_ok {data : Payload} {d : Descriptor}
    (h : descriptorOf s.cm.config (data.setWidth 128) = .ok d) :
    s.completeDescRead r .okay data = State.judged r ⟨s.walker.window, s.walker.dirAddr, s.walker.descAddr,
      s.walker.dirRights, d, descTouched (data.setWidth 128), descChanged (data.setWidth 128)⟩
      ((s.withWalker .idle).insertEntry ⟨s.walker.window, s.walker.dirAddr, s.walker.descAddr,
        s.walker.dirRights, d, descTouched (data.setWidth 128), descChanged (data.setWidth 128)⟩) := by
  simp only [State.completeDescRead, h]

theorem State.insertEntry_eq (e : WindowEntry) : s.insertEntry e = { s with
    windows := if s.cm.mode = .active ∨ s.cm.mode = .draining then insertWindow e s.windows else s.windows } := by
  rw [State.insertEntry]
  by_cases h : s.cm.mode = .active ∨ s.cm.mode = .draining
  · rw [if_pos h, if_pos ((Mode.insertsWindows_iff _).mpr h)]
    rfl
  · rw [if_neg h, if_neg (mt (Mode.insertsWindows_iff _).mp h)]

/-- Settles O11: the two reads offered, and each outcome of their completions. -/
theorem theWalkReadsTheTables : Obligations.TheWalkReadsTheTables := by
  intro s r data h
  refine ⟨fun hp hi => ?_, fun hp hi => ?_, fun hi => ?_, ?_, fun ha => ?_, fun hd hm => ?_, fun rights hd hr => ?_,
    ?_, fun cause hc => ?_, fun d hd => ?_⟩
  · rw [State.offer_walking h, State.offerWalk_unissued hi, hp]
  · rw [State.offer_walking h, State.offerWalk_unissued hi, hp]
  · rw [State.offer_walking h]
    exact if_pos hi
  · exact State.complete_dirRead h .error data
  · exact (State.complete_dirRead h .okay data).trans (State.completeDirRead_absent ha)
  · exact (State.complete_dirRead h .okay data).trans (State.completeDirRead_malformed hd hm)
  · rw [State.complete_dirRead h, State.completeDirRead_present hd hr, descAddrOf_decode]
    rfl
  · exact State.complete_descRead h .error data
  · exact (State.complete_descRead h .okay data).trans (State.completeDescRead_error hc)
  · rw [State.complete_descRead h, State.completeDescRead_ok hd, State.insertEntry_eq]
    rfl

/-! #### The Window Cache -/

theorem overlaps_iff {a m b n : Nat} (hn : 0 < n) :
    overlaps a m b n = true ↔ 0 < m ∧ a < b + n ∧ b < a + m := by
  simp [overlaps, hn]

theorem WindowEntry.touchedBy_eq_false_iff (addr : Addr) (n : Nat) (e : WindowEntry) :
    (!e.touchedBy addr n) = true ↔
      ¬ (0 < n ∧ addr.toNat < e.dirAddr.toNat + 8 ∧ e.dirAddr.toNat < addr.toNat + n) ∧
      ¬ (0 < n ∧ addr.toNat < e.descAddr.toNat + 16 ∧ e.descAddr.toNat < addr.toNat + n) := by
  rw [Bool.not_eq_true', WindowEntry.touchedBy, Bool.or_eq_false_iff, ← Bool.not_eq_true, ← Bool.not_eq_true,
    overlaps_iff (by decide), overlaps_iff (by decide)]

/-- Settles O13: an entry inserted with room and without, and the entries an observed write removes. -/
theorem theWindowCacheKeepsUseOrder : Obligations.TheWindowCacheKeepsUseOrder := by
  refine ⟨fun e es => ⟨fun hlen => ?_, fun old rest ho hlen => ?_⟩, fun s addr n =>
    ⟨s.windows.filter fun e => !e.touchedBy addr n, rfl, List.filter_sublist, fun e he => ?_⟩⟩
  · exact congrArg (· ++ [e]) (if_pos hlen)
  · have hfull : ¬ (old :: rest).length < Config.windowEntries := by simp [hlen, Config.windowEntries]
    rw [insertWindow, removeWindow, ho, if_neg hfull]
    rfl
  · rw [List.mem_filter, and_iff_right he]
    exact WindowEntry.touchedBy_eq_false_iff addr n e

end Sys2Proof.Machine
end

section
/-! SUPPORT. The locked update (O12): R41 to R47, R54 to R56, with the refusals of R65, R80, R81 and R104. -/

namespace Sys2Proof.Machine

variable {s : State} {r : Request}

/-! #### Refusals -/

theorem State.answerRequest_id {id : Nat} (h : r.readId = some id) (a : Answer) :
    s.answerRequest r a = { s with up := { s.up with reads := s.up.reads.map fun (e : ReadEntry) =>
      if e.id = id then { e with answer := some a } else e } } := by
  rw [State.answerRequest, h]
  rfl

theorem State.refuse_write (h : r.kind = .write) : s.refuse r = State.settleHold { s with
    path := none
    cm := { s.cm with
      flags := { s.cm.flags with dropped := true }
      mirror := { s.cm.mirror with statusPending := s.cm.mirror.statusPending || !s.cm.flags.dropped } } } := by
  rw [State.refuse, if_pos (by rw [Request.isWrite, h]; rfl), State.raiseDropped_eq]
  rfl

theorem State.refuse_read {id : Nat} (h : r.kind = .read) (hid : r.readId = some id) :
    s.refuse r = State.settleHold { s with
      path := none
      up := { s.up with reads := s.up.reads.map fun (e : ReadEntry) =>
        if e.id = id then { e with answer := some ⟨.fault, List.replicate r.shape.bytes 0xFF⟩ } else e } } := by
  rw [State.refuse, if_neg (by rw [Request.isWrite, h]; decide), State.answerRequest_id hid]
  rfl

/-! #### The bytes written back -/

theorem shiftLeft_one_getLsbD (k i : Nat) (hk : k < 128) : (1#128 <<< k).getLsbD i = (i == k) := by
  have h := BitVec.getLsbD_twoPow (w := 128) k i
  rw [BitVec.twoPow] at h
  rw [h, decide_eq_true hk, Bool.true_and, beq_eq_decide, decide_eq_decide]
  exact eq_comm

theorem descMarked_getLsbD (changed : Bool) (w : BitVec 128) (i : Nat) :
    (descMarked changed w).getLsbD i = (w.getLsbD i || i == 8 * 12 || (changed && i == 8 * 12 + 1)) := by
  rw [descMarked, BitVec.getLsbD_or, BitVec.getLsbD_or, shiftLeft_one_getLsbD 96 i (by decide)]
  cases changed with
  | false => simp
  | true => rw [if_pos rfl, shiftLeft_one_getLsbD 97 i (by decide), Bool.true_and]

/-! #### A request that passed its judgement -/

theorem needsFull_eq (kind : AccessKind) (window : WindowKind) :
    needsFull kind window = decide (kind = .write ∨ window = .drain) := by
  cases kind <;> cases window <;> decide

theorem WindowEntry.needsUpdate_iff (kind : AccessKind) (e : WindowEntry) : e.needsUpdate kind = true ↔
    e.touchedKnown = false ∨ ((kind = .write ∨ e.desc.kind = .drain) ∧ e.changedKnown = false) := by
  simp [WindowEntry.needsUpdate, needsFull_eq]

section

variable {e : WindowEntry} (hj : judge s.cm.config false e.dirRights e.desc r = none)

include hj

theorem State.judged_known (h : ¬ e.needsUpdate r.kind = true) : s.judged r e = s.execute r e.desc := by
  rw [State.judged, hj]
  exact if_neg h

theorem State.judged_begun (h : e.needsUpdate r.kind = true) (hm : s.cm.mode = .active ∨ s.cm.mode = .draining) :
    s.judged r e = s.beginLockedUpdate r e := by
  rw [State.judged, hj]
  exact (if_pos h).trans (if_neg (by rw [(Mode.refusesCarried_eq_false _).mpr hm]; nofun))

theorem State.judged_refused (h : e.needsUpdate r.kind = true) (hm : s.cm.mode = .halted ∨ s.cm.mode = .bypass) :
    s.judged r e = s.refuse r := by
  rw [State.judged, hj]
  refine (if_pos h).trans (if_pos ?_)
  obtain hm | hm := hm <;> rw [hm] <;> rfl

end

/-! #### The locked update's completions -/

theorem State.complete_lockedRead (h : s.path = some ⟨r, .walking⟩) (st : Status) (data : Payload) :
    s.complete .lockedRead st data = s.completeLockedRead r st data := s.forWalk_walking h _

theorem State.complete_unlockingWrite (h : s.path = some ⟨r, .walking⟩) (st : Status) (data : Payload) :
    s.complete .unlockingWrite st data = s.completeUnlockingWrite r st := s.forWalk_walking h _

theorem State.complete_release (h : s.path = some ⟨r, .walking⟩) (st : Status) (data : Payload) :
    s.complete .release st data = s.updateFailed r := s.forWalk_walking h _

theorem State.offer_unlocking (h : s.path = some ⟨r, .walking⟩) (hp : s.walker.phase = .unlocking)
    (hi : s.walker.issued = false) : s.offer .path = some (.unlockingWrite s.walker.descAddr (leBytes 16
      (if s.walker.verdict = none then descMarked s.walker.needChanged s.walker.descRead
        else s.walker.descRead).toNat), .unlockingWrite) := by
  rw [State.offer_walking h, State.offerWalk_unissued hi, hp]
  cases s.walker.verdict <;> rfl

theorem State.unlocked_passed {d : Descriptor} (hv : s.walker.verdict = none)
    (hd : descriptorOf s.cm.config s.walker.descRead = .ok d) : s.completeUnlockingWrite r .okay =
      State.execute r d (((s.unlock).withWalker .idle).insertEntry
        (s.walker.entry d true (s.walker.needChanged || descChanged s.walker.descRead))) := by
  simp only [State.completeUnlockingWrite, hv, hd]

theorem State.unlocked_failed {f : FaultInfo} (hv : s.walker.verdict = some f) :
    s.completeUnlockingWrite r .okay = State.walkFault r f ((s.unlock).updateAfterFailure s.walker) := by
  simp only [State.completeUnlockingWrite, hv]

theorem State.updateAfterFailure_error {w : Walker} {cause : Cause}
    (h : descriptorOf s.cm.config w.descRead = .error cause) : s.updateAfterFailure w = s.dropEntry w.window := by
  simp only [State.updateAfterFailure, h]

theorem State.updateAfterFailure_ok {w : Walker} {d : Descriptor} (h : descriptorOf s.cm.config w.descRead = .ok d) :
    s.updateAfterFailure w = s.updateEntry (w.entry d (descTouched w.descRead) (descChanged w.descRead)) := by
  simp only [State.updateAfterFailure, h]

theorem findWindow_isSome_iff (window : Nat) (es : List WindowEntry) :
    (findWindow window es).isSome = true ↔ ∃ e ∈ es, e.window = window := by
  simp [findWindow]

theorem State.updateEntry_known {e : WindowEntry} (h : ∃ x ∈ s.windows, x.window = e.window) :
    s.updateEntry e = { s with windows := insertWindow e s.windows } :=
  if_pos ((findWindow_isSome_iff _ _).mpr h)

theorem State.updateEntry_unknown {e : WindowEntry} (h : ∀ x ∈ s.windows, x.window ≠ e.window) :
    s.updateEntry e = s :=
  if_neg fun hs => by
    obtain ⟨x, hx, hw⟩ := (findWindow_isSome_iff _ _).mp hs
    exact h x hx hw

/-- Settles O12: the bytes written back, the request that passed, and each completion of the locked update. -/
theorem theLockedUpdateSetsTheIndicators : Obligations.TheLockedUpdateSetsTheIndicators := by
  refine ⟨fun changed w i _ => descMarked_getLsbD changed w i, fun s r e hj => ⟨fun hn => ?_, fun hn hm => ⟨?_, ?_⟩,
    fun hn hm => ⟨fun hw => ?_, fun id hk hid => ?_⟩⟩, fun s r data h => ⟨?_, ?_, fun d hd => ?_, fun c hc => ?_,
    fun st => ?_, ?_, fun d hv hd => ?_, fun f cause hv hc => ?_, fun f d hv hd => ⟨fun hnew => ?_, fun hold => ?_⟩⟩⟩
  · exact State.judged_known hj (mt (e.needsUpdate_iff r.kind).mp hn)
  · rw [State.judged_begun hj ((e.needsUpdate_iff r.kind).mpr hn) hm, State.beginLockedUpdate, needsFull_eq]
    rfl
  · rw [State.offer_walking rfl, State.offerWalk_unissued rfl]
  · rw [State.judged_refused hj ((e.needsUpdate_iff r.kind).mpr hn) hm, State.refuse_write hw]
  · rw [State.judged_refused hj ((e.needsUpdate_iff r.kind).mpr hn) hm, State.refuse_read hk hid]
  · rw [State.complete_lockedRead h, State.offer_walking (by exact h), State.offerWalk_unissued (by rfl)]
    rfl
  · rw [State.complete_lockedRead h]
    exact State.offer_unlocking (s := s.completeLockedRead r .okay data) h rfl rfl
  · rw [State.complete_lockedRead h]
    show secondJudgement _ _ _ _ = _
    rw [secondJudgement, hd]
  · rw [State.complete_lockedRead h]
    show secondJudgement _ _ _ _ = _
    rw [secondJudgement, hc]
  · rw [State.complete_release h, State.complete_unlockingWrite h]
    rfl
  · exact State.complete_unlockingWrite h .error data
  · rw [State.complete_unlockingWrite h, State.unlocked_passed hv hd, State.insertEntry_eq]
    rfl
  · rw [State.complete_unlockingWrite h, State.unlocked_failed hv, State.updateAfterFailure_error (by exact hc)]
    rfl
  · rw [State.complete_unlockingWrite h, State.unlocked_failed hv, State.updateAfterFailure_ok (by exact hd),
      State.updateEntry_unknown (by exact hnew)]
    rfl
  · rw [State.complete_unlockingWrite h, State.unlocked_failed hv, State.updateAfterFailure_ok (by exact hd),
      State.updateEntry_known (by exact hold)]
    rfl

end Sys2Proof.Machine
end

section
/-! SUPPORT. What becomes of a request taken (O14, O15, O59): the sorting of R64 to R66 and R78 to R80, the forwarded
access of R101 and R104, and the execution by KIND of R68 to R75. -/

namespace Sys2Proof.Machine

variable {s : State} {r : Request} {addr : Addr}

/-! #### A forwarded access -/

theorem Request.isWrite_eq (r : Request) : r.isWrite = decide (r.kind = .write) := by
  rw [Request.isWrite, beq_eq_decide]

theorem State.meetsLine_iff {n : Nat} (hn : 0 < n) : s.meetsLine addr n = true ↔ ¬ s.clearOf addr n := by
  constructor
  · intro h hclear
    obtain ⟨i, -, hi⟩ := List.any_eq_true.mp h
    rw [State.not_overlapped_of_clearOf hclear i] at hi
    cases hi
  · intro h
    obtain ⟨i, hi⟩ := not_forall.mp h
    obtain ⟨huse, hmeet⟩ := not_or.mp hi
    refine List.any_eq_true.mpr ⟨i, List.mem_finRange i, ?_⟩
    simp only [Line.overlapped, overlaps, Bool.and_eq_true, decide_eq_true_eq]
    exact ⟨huse, hn, by decide, by omega⟩

theorem State.startForward_clear (h : s.clearOf addr r.shape.bytes) (direct : Bool) :
    s.startForward r addr direct = { s with path := some ⟨r, .forward addr direct⟩ } := by
  have hnone : s.meetsLine addr r.bytes = false := by
    rw [State.meetsLine, List.any_eq_false]
    exact fun i _ => by rw [Request.bytes, State.not_overlapped_of_clearOf h i]; nofun
  rw [State.startForward, if_neg (by rw [hnone]; nofun), State.settle_of_clearOf (by exact h)]
  rfl

theorem State.startForward_settles (hm : s.cm.mode ≠ .halted) (direct : Bool) : s.startForward r addr direct =
    State.settle (decide (r.kind = .write)) addr r.shape.bytes
      { s with path := some ⟨r, .forward addr direct⟩ } := by
  rw [State.startForward, if_neg fun h => hm h.1, Request.isWrite_eq]
  rfl

theorem State.startForward_refused (hm : s.cm.mode = .halted) (hn : 0 < r.shape.bytes)
    (h : ¬ s.clearOf addr r.shape.bytes) (direct : Bool) : s.startForward r addr direct = s.refuse r :=
  if_pos ⟨hm, (State.meetsLine_iff hn).mpr h⟩

theorem State.offer_forward {direct : Bool} (hp : s.path = some ⟨r, .forward addr direct⟩)
    (h : s.clearOf addr r.shape.bytes) : s.offer .path = some (forwardRequest r addr direct) := by
  have hs : s.isSettled r.isWrite addr r.bytes = true := by
    rw [State.isSettled, List.all_eq_true]
    exact fun i _ => by rw [Request.bytes, State.not_overlapped_of_clearOf h i]; rfl
  simp only [State.offer, State.offerPath, hp, hs, if_true]

theorem forwardRequest_read {id : Nat} (hk : r.kind = .read) (hid : r.readId = some id) (direct : Bool) :
    forwardRequest r addr direct = (.read addr r.shape, .forwardedRead id r.shape.bytes) := by
  rw [forwardRequest, hk, hid]
  rfl

theorem forwardRequest_write (hk : r.kind = .write) (direct : Bool) : forwardRequest r addr direct =
    (.write addr r.shape r.data,
      .forwardedWrite ⟨r.master, ⟨r.kind, r.priv, r.shape⟩, r.addr⟩ (if direct then some addr else none)) := by
  simp only [forwardRequest, hk, Request.origin, Request.access]

/-! #### Execution by KIND (O59) -/

theorem State.execute_direct {d : Descriptor} (h : d.kind = .direct) : s.execute r d =
    s.startForward r (d.backingAddr (s.cm.config.windowOffset r.addr)) true := by
  simp only [State.execute, h]

theorem State.execute_refused {d : Descriptor} (h : d.kind ≠ .direct) (hm : s.cm.mode = .halted ∨ s.cm.mode = .bypass) :
    s.execute r d = s.refuse r := by
  have hc : s.cm.mode.refusesCarried = true := by obtain hm | hm := hm <;> rw [hm] <;> rfl
  cases hd : d.kind with
  | direct => exact absurd hd h
  | accumulate | clampedView | drain => cases hk : r.kind <;> simp only [State.execute, hd, hk, hc, if_true]

section

variable {d : Descriptor} (hc : s.cm.mode.refusesCarried = false)

include hc

theorem State.execute_accumulate_write (h : d.kind = .accumulate) (hk : r.kind = .write) : s.execute r d =
    s.handOperation r (formOperation ((accumulateOp d.params.op).getD .add) d r)
      (d.slotAddr (s.cm.config.windowOffset r.addr)) := by
  simp only [State.execute, h, hk, hc, Bool.false_eq_true, if_false]

theorem State.execute_clampedView_write (h : d.kind = .clampedView) (hk : r.kind = .write) : s.execute r d =
    s.handOperation r (formOperation .preset d r) (d.slotAddr (s.cm.config.windowOffset r.addr)) := by
  simp only [State.execute, h, hk, hc, Bool.false_eq_true, if_false]

theorem State.execute_drain_write (h : d.kind = .drain) (hk : r.kind = .write) : s.execute r d =
    s.handOperation r (formOperation .rearm d r) (d.slotAddr (s.cm.config.windowOffset r.addr)) := by
  simp only [State.execute, h, hk, hc, Bool.false_eq_true, if_false]

theorem State.execute_accumulate_read (h : d.kind = .accumulate) (hk : r.kind = .read) : s.execute r d =
    s.serveRead r (.presented d.order (s.cm.config.windowOffset r.addr % 8) (shapeSize r.shape))
      (d.slotAddr (s.cm.config.windowOffset r.addr)) := by
  simp only [State.execute, h, hk, hc, Bool.false_eq_true, if_false]

theorem State.execute_clampedView_read (h : d.kind = .clampedView) (hk : r.kind = .read) : s.execute r d =
    s.serveRead r (.clamped d.order (shapeSize r.shape)) (d.slotAddr (s.cm.config.windowOffset r.addr)) := by
  simp only [State.execute, h, hk, hc, Bool.false_eq_true, if_false]

theorem State.execute_drain_read (h : d.kind = .drain) (hk : r.kind = .read) : s.execute r d =
    s.serveDrain r d.order (d.slotAddr (s.cm.config.windowOffset r.addr)) := by
  simp only [State.execute, h, hk, hc, Bool.false_eq_true, if_false]

end

/-- Settles O59: DIRECT is forwarded, the other kinds are handed to the cache or refused for the mode. -/
theorem requestsAreExecutedByKind : Obligations.RequestsAreExecutedByKind := by
  intro s r d
  refine ⟨fun hd => ⟨fun hclear => ⟨?_, fun hk => ?_, fun id hk hid => ?_⟩, fun hm => ?_, fun hm hn hmeet => ?_⟩,
    fun hm => ?_, fun hd hm => ?_⟩
  · rw [State.execute_direct hd]
    exact State.startForward_clear hclear true
  · rw [State.offer_forward (by rfl) (by exact hclear), forwardRequest_write hk]
    rfl
  · rw [State.offer_forward (by rfl) (by exact hclear), forwardRequest_read hk hid]
  · rw [State.execute_direct hd]
    exact State.startForward_settles hm true
  · rw [State.execute_direct hd, State.startForward_refused hm hn (by exact hmeet)]
    exact ⟨State.refuse_write, fun id => State.refuse_read⟩
  · have hc := (Mode.refusesCarried_eq_false _).mpr hm
    refine ⟨fun kind hd hk hop => ?_, State.execute_clampedView_write hc, State.execute_drain_write hc,
      fun size hk hshape => ⟨fun hd => ?_, fun hd => ?_⟩, State.execute_drain_read hc⟩
    · rw [State.execute_accumulate_write hc hd hk, hop]
      rfl
    · rw [State.execute_accumulate_read hc hd hk, hshape]
      rfl
    · rw [State.execute_clampedView_read hc hd hk, hshape]
      rfl
  · rw [State.execute_refused hd hm]
    exact ⟨State.refuse_write, fun id => State.refuse_read⟩

end Sys2Proof.Machine
end

section
/-! SUPPORT. The request at the head of the intake queue (O14, O15): taken, sorted, and refused, forwarded, walked for
or judged (R64 to R66, R76 to R80, R116). -/

namespace Sys2Proof.Machine

variable {s : State} {r : Request} {rest : List Request}

/-! #### Taking the request -/

/-- The state with the head of the intake queue gone. -/
def State.intakeTaken (rest : List Request) (s : State) : State := { s with up := { s.up with intake := rest } }

theorem exec_requestTaken (h : s.pathFree) (hq : s.up.intake = r :: rest) (hh : s.heldAtHead r = false) :
    exec .requestTaken s = .next ((s.intakeTaken rest).sort r) := by
  obtain ⟨⟨hr, hw⟩, hp, hhold⟩ := h
  have hmay : s.mayTake = true := by simp [State.mayTake, hp, hhold, show s.pins.rstnAsserted = false from hr]
  show Host.Outcome.next _ = _
  rw [State.afterWords_none hw, if_pos hmay, State.takeRequestUp, hq]
  exact congrArg _ (if_neg (by rw [hh]; nofun))

theorem State.isSpanRequest_iff : s.isSpanRequest r = true ↔
    s.cm.mode ≠ .bypass ∧ r.misshapen = false ∧ s.cm.config.meetsSpan r.addr r.bytes = true := by
  simp [State.isSpanRequest, and_assoc]

theorem State.isSpanRequest_misshapen (h : r.misshapen = true) : s.isSpanRequest r = false := by
  simp [State.isSpanRequest, h]

theorem State.heldAtHead_of_mode (h : s.cm.mode ≠ .draining) : s.heldAtHead r = false := by
  simp [State.heldAtHead, h]

theorem State.heldAtHead_of_span (h : s.isSpanRequest r = false) : s.heldAtHead r = false := by
  simp [State.heldAtHead, h]

/-! #### Sorting -/

theorem State.sort_misshapen_active (h : r.misshapen = true) (hm : s.cm.mode = .active) :
    s.sort r = s.faultWith r (misshapenFault s.cm.config r) := by
  rw [State.sort, if_pos h, if_pos hm]

theorem State.sort_misshapen (h : r.misshapen = true) (hm : s.cm.mode ≠ .active) : s.sort r = s.refuse r := by
  rw [State.sort, if_pos h, if_neg hm]

theorem State.sort_forward (h : r.misshapen = false) (hs : s.isSpanRequest r = false) :
    s.sort r = s.startForward r r.addr false := by
  rw [State.sort, if_neg (by rw [h]; nofun), if_pos (by rw [hs]; rfl)]

section

variable (hs : s.isSpanRequest r = true)

include hs

theorem State.sort_span : s.sort r =
    if s.cm.mode = .active then
      if s.cm.config.insideSpan r.addr r.bytes then s.lookUp r else s.faultWith r (boundaryFault s.cm.config r)
    else s.refuse r := by
  obtain ⟨-, hform, -⟩ := State.isSpanRequest_iff.mp hs
  rw [State.sort, if_neg (by rw [hform]; nofun), if_neg (by rw [hs]; nofun)]

theorem State.sort_lookUp (hm : s.cm.mode = .active) (hi : s.cm.config.insideSpan r.addr r.bytes = true) :
    s.sort r = s.lookUp r := by
  rw [State.sort_span hs, if_pos hm, if_pos hi]

theorem State.sort_boundary (hm : s.cm.mode = .active) (hi : ¬ s.cm.config.insideSpan r.addr r.bytes = true) :
    s.sort r = s.faultWith r (boundaryFault s.cm.config r) := by
  rw [State.sort_span hs, if_pos hm, if_neg hi]

theorem State.sort_refused (hm : s.cm.mode ≠ .active) : s.sort r = s.refuse r := by
  rw [State.sort_span hs, if_neg hm]

end

theorem State.lookUp_hit {e : WindowEntry} (he : e ∈ s.windows) (hn : (s.windows.map (·.window)).Nodup)
    (hw : e.window = (r.addr.toNat - s.cm.config.spanBase.toNat) / 2048) :
    s.lookUp r = State.judged r e { s with windows := insertWindow e s.windows } := by
  have hfind : findWindow (s.cm.config.windowOf r.addr) s.windows = some e :=
    (congrArg (findWindow · s.windows) hw.symm).trans (findWindow_of_mem he hn)
  rw [State.lookUp, hfind]
  rfl

theorem State.lookUp_miss (h : ∀ e ∈ s.windows, e.window ≠ (r.addr.toNat - s.cm.config.spanBase.toNat) / 2048) :
    s.lookUp r = s.beginWalk r := by
  have hfind : findWindow (s.cm.config.windowOf r.addr) s.windows = none := by
    rw [findWindow, List.find?_eq_none]
    exact fun e he hw => h e he (of_decide_eq_true hw)
  rw [State.lookUp, hfind]

theorem State.judged_fault {e : WindowEntry} {f : FaultInfo}
    (h : judge s.cm.config false e.dirRights e.desc r = some f) : s.judged r e = s.faultWith r f := by
  rw [State.judged, h]

/-! #### The refusals of a request taken -/

/-- The two refusals without a record (R65, R80). -/
theorem exec_requestTaken_refused (h : s.pathFree) (hq : s.up.intake = r :: rest)
    (hc : r.misshapen = true ∧ s.cm.mode ≠ .active ∨ s.isSpanRequest r = true ∧ s.cm.mode = .halted) :
    exec .requestTaken s = .next ((s.intakeTaken rest).refuse r) := by
  obtain ⟨hform, hm⟩ | ⟨hs, hm⟩ := hc
  · rw [exec_requestTaken h hq (State.heldAtHead_of_span (State.isSpanRequest_misshapen hform)),
      State.sort_misshapen hform (by exact hm)]
  · rw [exec_requestTaken h hq (State.heldAtHead_of_mode (by rw [hm]; nofun)),
      State.sort_refused (by exact hs) (by exact fun ha => Mode.noConfusion (hm.symm.trans ha))]

theorem State.withPath_none (h : s.path = none) : s.withPath none = s := by
  rw [State.withPath, ← h]

/-- A fault with a cause where the path holds no request (R76, R77). -/
theorem State.faultWith_pathFree (h : s.path = none) (f : FaultInfo) : s.faultWith r f =
    State.settleHold (((State.handRecord (faultRecord r f) { s with up := { s.up with
      reads := match r.readId with
        | some id => s.up.reads.map fun (e : ReadEntry) =>
            if e.id = id then { e with answer := some ⟨.fault, List.replicate r.shape.bytes 0xFF⟩ } else e
        | none => s.up.reads } })).reportFault (faultRecord r f)) := by
  rw [State.faultWith, State.finishPath, State.withPath_none (by simp [h])]
  cases hid : r.readId with
  | none => simp only [State.answerRequest, hid]
  | some id =>
    rw [State.answerRequest_id hid]
    rfl

/-! #### The span in the statements' words -/

theorem LoadedConfig.meetsSpan_iff (c : LoadedConfig) (addr : Addr) (n : Nat) : c.meetsSpan addr n = true ↔
    0 < n ∧ addr.toNat < c.spanBase.toNat + 2 ^ 18 * 2 ^ c.spanSize ∧ c.spanBase.toNat < addr.toNat + n :=
  overlaps_iff (Nat.mul_pos (by decide) (Nat.two_pow_pos _))

theorem LoadedConfig.insideSpan_iff (c : LoadedConfig) (addr : Addr) (n : Nat) : c.insideSpan addr n = true ↔
    c.spanBase.toNat ≤ addr.toNat ∧ addr.toNat + n ≤ c.spanBase.toNat + 2 ^ 18 * 2 ^ c.spanSize :=
  decide_eq_true_iff

/-- Settles O14: the refusals without a record, and the three faults of a request taken in ACTIVE. -/
theorem refusedRequestsAreAnsweredOrDropped : Obligations.RefusedRequestsAreAnsweredOrDropped := by
  refine ⟨fun s r rest h hq hk hc => ?_, fun s r rest id h hq hk hid hc => ?_, fun s r rest h hq hm =>
    ⟨fun hform => ?_, fun hform hmeet hedge => ?_, fun e f hform hmeet hlo hhi he hn hw hj => ?_⟩⟩
  · have hp : s.path = none := h.2.1
    rw [exec_requestTaken_refused h hq hc, State.refuse_write hk, ← hp]
    rfl
  · have hp : s.path = none := h.2.1
    rw [exec_requestTaken_refused h hq hc, State.refuse_read hk hid, ← hp]
    rfl
  · have hp : s.path = none := h.2.1
    rw [exec_requestTaken h hq (State.heldAtHead_of_mode (by rw [hm]; nofun)),
      State.sort_misshapen_active hform (by exact hm), State.faultWith_pathFree (by exact hp), misshapenFault,
      if_congr (LoadedConfig.meetsSpan_iff _ _ _) rfl rfl]
    rfl
  · have hp : s.path = none := h.2.1
    have hs : s.isSpanRequest r = true := State.isSpanRequest_iff.mpr
      ⟨by rw [hm]; nofun, hform, (LoadedConfig.meetsSpan_iff _ _ _).mpr hmeet⟩
    have hcross : ¬ s.cm.config.insideSpan r.addr r.shape.bytes = true := by
      rw [LoadedConfig.insideSpan_iff]
      omega
    rw [exec_requestTaken h hq (State.heldAtHead_of_mode (by rw [hm]; nofun)),
      State.sort_boundary (by exact hs) (by exact hm) (by exact hcross), State.faultWith_pathFree (by exact hp)]
    rfl
  · have hp : s.path = none := h.2.1
    have hs : s.isSpanRequest r = true := State.isSpanRequest_iff.mpr
      ⟨by rw [hm]; nofun, hform, (LoadedConfig.meetsSpan_iff _ _ _).mpr hmeet⟩
    rw [exec_requestTaken h hq (State.heldAtHead_of_mode (by rw [hm]; nofun)),
      State.sort_lookUp (by exact hs) (by exact hm) (by exact (LoadedConfig.insideSpan_iff _ _ _).mpr ⟨hlo, hhi⟩),
      State.lookUp_hit (by exact he) (by exact hn) (by exact hw), State.judged_fault (by exact hj),
      State.faultWith_pathFree (by exact hp)]
    rfl

/-- Settles O15: the request forwarded, held at the head, walked for, or judged on its entry. -/
theorem requestsAreSortedByTheSpan : Obligations.RequestsAreSortedByTheSpan := by
  refine ⟨fun s r rest h hq hform hs => ?_, fun s r rest hw hq hs hm => ?_, fun s r rest h hq hs hi hm hmiss => ?_,
    fun s r rest e h hq hs hi hm he hn hw => ?_⟩
  · have hp : s.path = none := h.2.1
    have hsort : exec .requestTaken s = .next ((s.intakeTaken rest).startForward r r.addr false) := by
      rw [exec_requestTaken h hq (State.heldAtHead_of_span hs), State.sort_forward hform (by exact hs)]
    rw [hsort]
    refine ⟨fun hclear => ⟨?_, fun id hk hid => ?_, fun hk => ?_⟩, fun hm => ?_, fun hm hn hmeet =>
      ⟨fun hk => ?_, fun id hk hid => ?_⟩⟩
    · rw [State.startForward_clear (by exact hclear)]
      rfl
    · rw [State.offer_forward (by rfl) (by exact hclear), forwardRequest_read hk hid]
    · rw [State.offer_forward (by rfl) (by exact hclear), forwardRequest_write hk]
      rfl
    · rw [State.startForward_settles (by exact hm)]
      rfl
    · rw [State.startForward_refused (by exact hm) hn (by exact hmeet), State.refuse_write hk, ← hp]
      rfl
    · rw [State.startForward_refused (by exact hm) hn (by exact hmeet), State.refuse_read hk hid, ← hp]
      rfl
  · show Host.Outcome.next _ = _
    rw [State.afterWords_none hw, State.takeRequestUp, hq]
    have hh : s.heldAtHead r = true := by simp [State.heldAtHead, hm, hs]
    simp only [hh, if_true, ite_self]
  · rw [exec_requestTaken h hq (State.heldAtHead_of_mode (by rw [hm]; nofun)),
      State.sort_lookUp (by exact hs) (by exact hm) (by exact hi), State.lookUp_miss (by exact hmiss)]
    rfl
  · rw [exec_requestTaken h hq (State.heldAtHead_of_mode (by rw [hm]; nofun)),
      State.sort_lookUp (by exact hs) (by exact hm) (by exact hi),
      State.lookUp_hit (by exact he) (by exact hn) (by exact hw)]
    rfl

end Sys2Proof.Machine
end

section
/-! SUPPORT. An operation handed to the cache (O16, O17): allocation (R84), the pending list (R86, R87), the record
replaced at once (R86, R96), and the retry after a completion (R85, R87). -/

namespace Sys2Proof.Machine

variable {s : State} {r : Request} {op : PendingOp} {backing : Addr}

/-! #### Allocation -/

theorem find?_finRange_eq_some {n : Nat} {p : Fin n → Bool} {i : Fin n} (hi : p i = true)
    (hj : ∀ j, j < i → p j = false) : (List.finRange n).find? p = some i := by
  rw [List.find?_eq_some_iff_getElem]
  refine ⟨hi, i.val, by simp, by simp, fun k hk => ?_⟩
  simpa using hj ⟨k, hk.trans i.isLt⟩ hk

theorem State.allocation_free {i : Fin 64} (hi : (s.line i).state = .free)
    (hj : ∀ j, j < i → (s.line j).state ≠ .free) : s.allocation = .take i := by
  rw [State.allocation, find?_finRange_eq_some (i := i) (decide_eq_true hi) fun j h => decide_eq_false (hj j h)]

section

variable (hfull : ∀ i, (s.line i).state ≠ .free)

include hfull

theorem State.no_free_line : ((List.finRange 64).find? fun i => (s.line i).state = .free) = none :=
  List.find?_eq_none.mpr fun i _ => by simpa using hfull i

theorem State.allocation_victim {older newer : List (Fin 64)} {i : Fin 64} (ho : s.acc.order = older ++ i :: newer)
    (hbusy : ∀ j ∈ older, (s.line j).state = .filling ∨ (s.line j).state = .writing)
    (hi : (s.line i).state = .clean ∨ (s.line i).state = .dirty) :
    s.allocation = if (s.line i).state = .clean then .take i else .evict i := by
  have holder : (older.find? fun i => (s.line i).state = .clean ∨ (s.line i).state = .dirty) = none := by
    refine List.find?_eq_none.mpr fun j hj => ?_
    obtain h | h := hbusy j hj <;> simp [h]
  have hvictim : (s.acc.order.find? fun i => (s.line i).state = .clean ∨ (s.line i).state = .dirty) = some i := by
    rw [ho, List.find?_append, holder, Option.none_or, List.find?_cons_of_pos (by simpa using hi)]
  simp only [State.allocation, State.no_free_line hfull, hvictim]

theorem State.allocation_wait (hbusy : ∀ i, (s.line i).state = .filling ∨ (s.line i).state = .writing) :
    s.allocation = .wait := by
  have hnone : (s.acc.order.find? fun i => (s.line i).state = .clean ∨ (s.line i).state = .dirty) = none := by
    refine List.find?_eq_none.mpr fun j _ => ?_
    obtain h | h := hbusy j <;> simp [h]
  simp only [State.allocation, State.no_free_line hfull, hnone]

end

theorem State.lineFor_of_unused (h : ∀ j, (s.line j).inUse → (s.line j).backing ≠ backing) :
    s.lineFor backing = none :=
  List.find?_eq_none.mpr fun j _ => by simpa using h j

theorem State.setUpLine_spec (i : Fin 64) (pending : List PendingOp) (cause : Origin) :
    s.setUpLine i backing pending cause = { s with acc := (s.setUpLine i backing pending cause).acc } ∧
      (s.setUpLine i backing pending cause).line i =
        { Line.empty with state := .filling, backing := backing, pending := pending, cause := cause } ∧
      (∀ j, j ≠ i → (s.setUpLine i backing pending cause).line j = s.line j) ∧
      (s.setUpLine i backing pending cause).acc.order = s.acc.order.filter (· ≠ i) ++ [i] ∧
      (s.setUpLine i backing pending cause).acc.fillQueue = s.acc.fillQueue ++ [i] ∧
      (s.setUpLine i backing pending cause).acc.writeQueue = s.acc.writeQueue := by
  refine ⟨rfl, ?_, fun j hj => ?_, rfl, rfl, rfl⟩
  · rw [State.line_setUpLine, if_pos rfl]
  · rw [State.line_setUpLine, if_neg (Ne.symm hj)]

/-! #### The operation handed over -/

theorem State.handOperation_take {i : Fin 64} (hnew : s.lineFor backing = none) (ha : s.allocation = .take i) :
    s.handOperation r op backing = (s.setUpLine i backing [op] r.origin).finishPath := by
  simp only [State.handOperation, hnew, State.allocate, ha]

theorem State.handOperation_evict {v : Fin 64} (hnew : s.lineFor backing = none) (ha : s.allocation = .evict v) :
    s.handOperation r op backing = (s.startWriteBack true v).keep r (.operation op backing) := by
  simp only [State.handOperation, hnew, State.allocate, ha]

theorem State.handOperation_wait (hnew : s.lineFor backing = none) (ha : s.allocation = .wait) :
    s.handOperation r op backing = s.keep r (.operation op backing) := by
  simp only [State.handOperation, hnew, State.allocate, ha]

theorem Line.not_filling_of_present {l : Line} (h : l.state ∈ [LineState.clean, .dirty, .writing]) :
    l.state ≠ .filling ∧ l.inUse := by
  simp only [List.mem_cons, List.not_mem_nil, or_false] at h
  obtain h | h | h := h <;> simp [Line.inUse, h]

theorem State.handOperation_present {i : Fin 64} (hi : s.lineFor backing = some i)
    (h : (s.line i).state ∈ [LineState.clean, .dirty, .writing]) :
    s.handOperation r op backing = (s.applyOp op i).finishPath := by
  simp only [State.handOperation, hi, if_neg (Line.not_filling_of_present h).1]

theorem State.handOperation_pending {i : Fin 64} (hi : s.lineFor backing = some i) (h : (s.line i).state = .filling)
    (hlen : (s.line i).pending.length < 8) : s.handOperation r op backing =
      (s.setLine i { s.line i with pending := (s.line i).pending ++ [op] }).finishPath := by
  simp only [State.handOperation, hi, if_pos h]
  exact if_pos hlen

theorem State.handOperation_full {i : Fin 64} (hi : s.lineFor backing = some i) (h : (s.line i).state = .filling)
    (hlen : (s.line i).pending.length = 8) : s.handOperation r op backing = s.keep r (.operation op backing) := by
  simp only [State.handOperation, hi, if_pos h]
  exact if_neg (by rw [hlen]; decide)

/-- What an operation applied at once leaves of the lines (R86, R96). -/
theorem State.applyOp_spec {i : Fin 64} (h : (s.line i).state ∈ [LineState.clean, .dirty, .writing]) :
    (s.applyOp op i).line i = { s.line i with
      record := (evaluate op (s.line i).record).record
      state := if (s.line i).state = .clean then .dirty else (s.line i).state
      redirty := (s.line i).redirty || decide ((s.line i).state = .writing)
      age := if (s.line i).state ≠ .clean then (s.line i).age
        else if s.acc.ageInterval = 0 ∨ s.cm.mode = .halted then none else some s.acc.ageInterval } ∧
    (∀ j, j ≠ i → (s.applyOp op i).line j = s.line j) ∧
    (s.applyOp op i).acc.order = s.acc.order.filter (· ≠ i) ++ [i] ∧
    (s.applyOp op i).acc.fillQueue = s.acc.fillQueue ∧ (s.applyOp op i).acc.writeQueue = s.acc.writeQueue ∧
    (s.applyOp op i).acc.ageInterval = s.acc.ageInterval := by
  rw [State.applyOp_eq]
  refine ⟨?_, fun j hj => ?_, rfl, rfl, rfl, rfl⟩
  · show ((s.acc.setLine i _).touch i).line i = _
    rw [AccCache.line_touch, AccCache.line_setLine, if_pos rfl, Line.replaceRecord_eq _ _ h]
    rfl
  · show ((s.acc.setLine i _).touch i).line j = _
    rw [AccCache.line_touch, AccCache.line_setLine, if_neg (Ne.symm hj)]
    rfl

/-! #### The retry of the request held -/

/-- A request held, that a completion has tried again by `f`, is tried on what the completion leaves without it. -/
theorem State.completions_tried {f : State → State} {i : Fin 64} (hw : s.waiterOn i = none)
    (hf : ∀ u : State, u.cm.leaving = s.cm.leaving → (f u.linesReported).linesReported = (f u).linesReported)
    (hr : ∀ u : State, u.path = s.path → u.resumePath = f u) :
    ((s.line i).state = .writing → s.completeWriteBack i .okay =
      (f { State.completeWriteBack i .okay { s with path := none } with path := s.path }).linesReported) ∧
    ((s.line i).state = .filling → ∀ st data, s.completeFill i st data =
      (f { State.completeFill i st data { s with path := none } with path := s.path }).linesReported) := by
  refine ⟨fun h => ?_, fun h st data => ?_⟩
  · rw [State.completeWriteBack_okay h, State.completeWriteBack_okay (s := { s with path := none }) h]
    exact State.afterLine_tried (own := State.lineWritten i) (fun u p => u.lineWritten_withPath i p)
      (fun u => (u.lineWritten_course i).2.2) i (fun u hu => hf u (hu.trans (s.lineWritten_course i).1)) hr
  · rw [State.completeFill_noWaiter h hw, State.completeFill_noWaiter (s := { s with path := none }) h rfl]
    exact State.afterLine_tried (own := State.lineFilled i st data) (fun u p => u.lineFilled_withPath i st data p)
      (fun u => (u.lineFilled_course i st data).2.2) i
      (fun u hu => hf u (hu.trans (s.lineFilled_course i st data).1)) hr

theorem State.resumePath_operation {u : State} (h : u.path = some ⟨r, .operation op backing⟩) :
    u.resumePath = u.handOperation r op backing := by
  simp only [State.resumePath, h]

/-- Settles O17: allocation, the operation by the state of its line, and its retry. -/
theorem operationsFindTheirLine : Obligations.OperationsFindTheirLine := by
  refine ⟨fun s => ⟨fun i => State.allocation_free, fun hfull => ⟨fun older i newer ho hbusy =>
      ⟨fun hi => ?_, fun hi => ?_⟩, State.allocation_wait hfull⟩⟩,
    fun s r op backing i hnew ha => ?_, fun s r op i h hu => ?_, fun s r op i h hu => ⟨fun hlen => ?_, fun hlen => ?_⟩,
    fun s r op backing hnew => ⟨fun v ha => ?_, fun ha => ?_⟩, fun s r op backing i st data hp hl => ?_⟩
  · rw [State.allocation_victim hfull ho hbusy (.inl hi), if_pos hi]
  · rw [State.allocation_victim hfull ho hbusy (.inr hi), if_neg (by rw [hi]; nofun)]
  · exact ⟨s.setUpLine i backing [op] r.origin, State.handOperation_take (State.lineFor_of_unused hnew) ha,
      State.setUpLine_spec i [op] r.origin⟩
  · obtain ⟨-, huse⟩ := Line.not_filling_of_present h
    refine ⟨s.applyOp op i, State.handOperation_present (State.lineFor_eq_some huse hu) h, ?_, State.applyOp_spec h⟩
    rw [State.applyOp_eq]
    rfl
  · refine ⟨_, State.handOperation_pending (State.lineFor_eq_some (by rw [Line.inUse, h]; nofun) hu) h hlen, rfl, ?_,
      fun j hj => ?_, rfl, rfl, rfl⟩
    · rw [State.line_setLine, if_pos rfl]
    · rw [State.line_setLine, if_neg (Ne.symm hj)]
  · exact State.handOperation_full (State.lineFor_eq_some (by rw [Line.inUse, h]; nofun) hu) h hlen
  · exact State.handOperation_evict (State.lineFor_of_unused hnew) ha
  · exact State.handOperation_wait (State.lineFor_of_unused hnew) ha
  · obtain ⟨hwrite, hfill⟩ := State.completions_tried (f := fun u => u.handOperation r op backing) (i := i)
      (by rw [State.waiterOn, hp])
      (fun u hu => State.retry_reported (State.handOperation_course r op backing)
        (fun v => v.handOperation_endRequest _ _ r op backing)
        (fun v hv => State.handOperation_unmarked hv r op backing) (by rw [hu]; exact hl))
      (fun u hu => State.resumePath_operation (hu.trans hp))
    exact ⟨hwrite, fun h => hfill h st data⟩

end Sys2Proof.Machine
end

section
/-! SUPPORT. Counter accesses carried out at once (O16, O18): the write found in the Window Cache (R51, R70, R86), and
the reads of R98 to R100. -/

namespace Sys2Proof.Machine

variable {s : State} {r : Request} {order : Order} {backing : Addr}

/-! #### Reads of a counter -/

theorem Order.arrange_eq_ite (o : Order) (bytes : List Byte) :
    o.arrange bytes = if o = .big then bytes.reverse else bytes := by
  cases o <;> rfl

theorem State.serveDrain_present {i : Fin 64} (hi : s.lineFor backing = some i)
    (h : (s.line i).state ∈ [LineState.clean, .dirty, .writing]) : s.serveDrain r order backing =
      State.finishPath (State.answerRequest r (okayAnswer (presentedRecord order (s.line i).record))
        ((s.setLine i ((s.line i).replaceRecord (drained (s.line i).record) s.startedAge)).touch i)) := by
  simp only [State.serveDrain, hi, if_neg (Line.not_filling_of_present h).1]

theorem State.serveDrain_filling {i : Fin 64} (hi : s.lineFor backing = some i) (h : (s.line i).state = .filling) :
    s.serveDrain r order backing = s.keep r (.onLine i (.drain order)) := by
  simp only [State.serveDrain, hi, if_pos h]

theorem State.serveDrain_take {i : Fin 64} (hnew : s.lineFor backing = none) (ha : s.allocation = .take i) :
    s.serveDrain r order backing = (s.setUpLine i backing [] r.origin).keep r (.onLine i (.drain order)) := by
  simp only [State.serveDrain, hnew, State.allocate, ha]

theorem State.serveDrain_evict {v : Fin 64} (hnew : s.lineFor backing = none) (ha : s.allocation = .evict v) :
    s.serveDrain r order backing = (s.startWriteBack true v).keep r (.drainRead backing order) := by
  simp only [State.serveDrain, hnew, State.allocate, ha]

theorem State.serveDrain_wait (hnew : s.lineFor backing = none) (ha : s.allocation = .wait) :
    s.serveDrain r order backing = s.keep r (.drainRead backing order) := by
  simp only [State.serveDrain, hnew, State.allocate, ha]

theorem State.serveRead_present {i : Fin 64} {view : View} (hi : s.lineFor backing = some i)
    (h : (s.line i).state ∈ [LineState.clean, .dirty, .writing]) : s.serveRead r view backing =
      State.finishPath ((s.touch i).answerRequest r (okayAnswer (view.answer (s.line i).record))) := by
  simp only [State.serveRead, hi, if_neg (Line.not_filling_of_present h).1]

theorem State.serveRead_filling {i : Fin 64} {view : View} (hi : s.lineFor backing = some i)
    (h : (s.line i).state = .filling) : s.serveRead r view backing = s.keep r (.onLine i view) := by
  simp only [State.serveRead, hi, if_pos h]

theorem State.serveRead_new {view : View} (hnew : s.lineFor backing = none) :
    s.serveRead r view backing = s.keep r (.counterRead backing view) := by
  simp only [State.serveRead, hnew]

theorem State.resumePath_drainRead {u : State} (h : u.path = some ⟨r, .drainRead backing order⟩) :
    u.resumePath = u.serveDrain r order backing := by
  simp only [State.resumePath, h]

/-- What a DRAIN read leaves of a line that holds a record (R96, R100). -/
theorem State.drained_line {i : Fin 64} (h : (s.line i).state ∈ [LineState.clean, .dirty, .writing]) :
    (s.line i).replaceRecord (drained (s.line i).record) s.startedAge = { s.line i with
      record := { (s.line i).record with value := 0, ovf := false }
      state := if (s.line i).state = .clean then .dirty else (s.line i).state
      redirty := (s.line i).redirty || decide ((s.line i).state = .writing)
      age := if (s.line i).state ≠ .clean then (s.line i).age
        else if s.acc.ageInterval = 0 ∨ s.cm.mode = .halted then none else some s.acc.ageInterval } :=
  Line.replaceRecord_eq _ _ h

/-- Settles O18: the reads by the state of the counter's line, and the retry of a DRAIN read. -/
theorem counterReadsTakeTheRecord : Obligations.CounterReadsTakeTheRecord := by
  refine ⟨fun s r order i id h hu hid => ?_, fun s r order i h hu => ?_, fun s r order backing hnew =>
    ⟨fun i ha => ?_, fun v ha => ?_, fun ha => ?_⟩, fun s r order backing i st data hp hl => ?_,
    fun s r view backing i id hid => ⟨fun h hb hu => ?_, fun h hb hu => ?_, fun hnew => ⟨?_, ?_⟩⟩⟩
  · obtain ⟨-, huse⟩ := Line.not_filling_of_present h
    have hfound := State.lineFor_eq_some huse hu
    refine ⟨_, State.serveDrain_present hfound h, ?_⟩
    rw [State.answerRequest_id hid, okayAnswer, presentedRecord, Order.arrange_eq_ite, State.drained_line h]
    refine ⟨rfl, ?_, fun j hj => ?_, rfl, rfl, rfl, rfl, rfl⟩
    · exact (State.line_setLine s i i _).trans (if_pos rfl)
    · exact (State.line_setLine s i j _).trans (if_neg (Ne.symm hj))
  · exact State.serveDrain_filling (State.lineFor_eq_some (by rw [Line.inUse, h]; nofun) hu) h
  · obtain ⟨-, hline, hothers, horder, hfill, hwrite⟩ :=
      State.setUpLine_spec (s := s) (backing := backing) i [] r.origin
    exact ⟨_, State.serveDrain_take (State.lineFor_of_unused hnew) ha, hline, hothers, horder, hfill, hwrite⟩
  · exact State.serveDrain_evict (State.lineFor_of_unused hnew) ha
  · exact State.serveDrain_wait (State.lineFor_of_unused hnew) ha
  · obtain ⟨hwrite, hfill⟩ := State.completions_tried (f := fun u => u.serveDrain r order backing) (i := i)
      (by rw [State.waiterOn, hp])
      (fun u hu => State.retry_reported (State.serveDrain_course r order backing)
        (fun v => v.serveDrain_endRequest _ _ r order backing)
        (fun v hv => State.serveDrain_unmarked hv r order backing) (by rw [hu]; exact hl))
      (fun u hu => State.resumePath_drainRead (hu.trans hp))
    exact ⟨hwrite, fun h => hfill h st data⟩
  · obtain ⟨-, huse⟩ := Line.not_filling_of_present h
    rw [State.serveRead_present (hb ▸ State.lineFor_eq_some huse (hb ▸ hu)) h, State.answerRequest_id hid]
    rfl
  · exact State.serveRead_filling (hb ▸ State.lineFor_eq_some (by rw [Line.inUse, h]; nofun) (hb ▸ hu)) h
  · exact State.serveRead_new (State.lineFor_of_unused hnew)
  · rw [State.serveRead_new (State.lineFor_of_unused hnew)]
    show some (_, Purpose.counterRead (r.readId.getD 0) view) = _
    rw [hid]
    rfl

/-! #### A write found in the Window Cache -/

theorem State.finishPath_path : s.finishPath.path = none := by
  simp [State.finishPath]

theorem State.finishPath_line (i : Fin 64) : s.finishPath.line i = s.line i := by
  simp [State.line]

theorem State.finishPath_ring : s.finishPath.ring = s.ring := by
  simp

theorem State.applyOp_ring {op : PendingOp} {i : Fin 64} : (s.applyOp op i).ring =
    if (evaluate op (s.line i).record).fired then (s.handRecord
      (thresholdRecord op (s.line i).backing (s.line i).record (evaluate op (s.line i).record).record)).ring
    else s.ring := by
  rw [State.applyOp_eq]
  split <;> rfl

theorem formOperation_write {kind : OpKind} {d : Descriptor} (hk : r.kind = .write)
    (hop : accumulateOp d.params.op = some kind) : formOperation ((accumulateOp d.params.op).getD .add) d r =
      ⟨kind, operandOf d.order d.params.signed r.data, d.params, ⟨r.master, ⟨.write, r.priv, r.shape⟩, r.addr⟩⟩ := by
  rw [hop, formOperation, Request.origin, Request.access, hk]
  rfl

/-- Settles O16: the entry is hit, the request passes on it, and its operation is applied to the line. -/
theorem accumulateWritesAreAppliedAtOnce : Obligations.AccumulateWritesAreAppliedAtOnce := by
  intro s r rest e i kind h hq hs hi hm hk he hn hw ht hc hd hop hj l offset hl hb hu op new
  let u : State := { s with up := { s.up with intake := rest }, windows := insertWindow e s.windows }
  have hneeds : ¬ e.needsUpdate r.kind = true := by simp [WindowEntry.needsUpdate, ht, hc]
  obtain ⟨-, huse⟩ := Line.not_filling_of_present hl
  have hfound : u.lineFor (e.desc.slotAddr (u.cm.config.windowOffset r.addr)) = some i :=
    (congrArg u.lineFor hb.symm).trans (State.lineFor_eq_some (s := u) huse hu)
  have hexec : exec .requestTaken s = .next (u.applyOp op i).finishPath := by
    rw [exec_requestTaken h hq (State.heldAtHead_of_mode (by rw [hm]; nofun)),
      State.sort_lookUp (by exact hs) (by exact hm) (by exact hi),
      State.lookUp_hit (by exact he) (by exact hn) (by exact hw), State.judged_known (by exact hj) hneeds,
      State.execute_accumulate_write (by exact (Mode.refusesCarried_eq_false _).mpr (.inl hm)) hd hk,
      formOperation_write hk hop]
    exact congrArg _ (State.handOperation_present hfound hl)
  obtain ⟨hline, hothers, horder, hfill, hwrite, -⟩ := State.applyOp_spec (s := u) (op := op) hl
  refine ⟨_, hexec, State.finishPath_path, by simp [u], by simp [u], by simp [u], by simp [u], by simp [u],
    by simp [u], ?_, fun j hj => ?_, ?_, ?_, ?_, fun hf hring hlen => ?_, fun hf => ?_⟩
  · have hage : u.acc.ageInterval = 0 ∨ u.cm.mode = .halted ↔ s.acc.ageInterval = 0 := by simp [u, hm]
    rw [State.finishPath_line, hline, if_congr hage rfl rfl]
    rfl
  · rw [State.finishPath_line]
    exact hothers j hj
  · simpa using horder
  · simpa using hfill
  · simpa using hwrite
  · rw [State.finishPath_ring, State.applyOp_ring, if_pos (by exact hf), State.handRecord_active _ (by exact hring),
      if_pos (by exact hlen)]
    rfl
  · rw [State.finishPath_ring, State.applyOp_ring, if_neg (by rw [Bool.not_eq_true]; exact hf)]

end Sys2Proof.Machine
end

section
/-! SUPPORT. Settling and write-backs (O20, O60): R91, R93, R96, R97, R101 to R104. -/

namespace Sys2Proof.Machine

variable {s : State} {i : Fin 64}

/-! #### What follows a change of a line -/

theorem State.resumePath_none {u : State} (h : u.path = none) : u.resumePath = u := by
  simp only [State.resumePath, h]

theorem State.drainLine_outside (h : s.cm.leaving ≠ .draining) (i : Fin 64) : s.drainLine i = s := if_neg h

/-- With no request held and no drain in progress a change of a line is reported, and nothing else. -/
theorem State.afterLine_free (hp : s.path = none) (hl : s.cm.leaving ≠ .draining) (i : Fin 64) :
    s.afterLine i = s.linesReported := by
  rw [State.afterLine_eq, State.drainLine_outside hl, State.resumePath_none hp]

/-- The requests held that a change of a line leaves as they are. -/
theorem State.resumePath_kept {u : State} {r : Request} {stage : Stage} (h : u.path = some ⟨r, stage⟩)
    (hs : stage = .walking ∨ (∃ backing view, stage = .counterRead backing view) ∨ ∃ j view, stage = .onLine j view) :
    u.resumePath = u := by
  obtain rfl | ⟨backing, view, rfl⟩ | ⟨j, view, rfl⟩ := hs <;> simp only [State.resumePath, h]

theorem State.resumePath_forward {u : State} {r : Request} {addr : Addr} {direct : Bool}
    (h : u.path = some ⟨r, .forward addr direct⟩) :
    u.resumePath = u.settle (decide (r.kind = .write)) addr r.shape.bytes := by
  simp only [State.resumePath, h, Request.isWrite_eq, Request.bytes]

/-! #### The age timer -/

theorem exec_ageTimerExpiry (h : s.current) (hd : (s.line i).state = .dirty) (ha : (s.line i).age.isSome = true) :
    exec (.ageTimerExpiry i) s = .next (s.startWriteBack false i).settlePath := by
  obtain ⟨hr, hw⟩ := h
  show Host.Outcome.next _ = _
  rw [State.afterWords_none hw, if_neg (by simp [show s.pins.rstnAsserted = false from hr]), State.ageExpired,
    if_pos ⟨hd, ha⟩]

theorem State.settlePath_none (h : s.path = none) : s.settlePath = s := by
  simp only [State.settlePath, h]

theorem State.settlePath_forward {r : Request} {addr : Addr} {direct : Bool}
    (h : s.path = some ⟨r, .forward addr direct⟩) :
    s.settlePath = s.settle (decide (r.kind = .write)) addr r.shape.bytes := by
  simp only [State.settlePath, h, Request.isWrite_eq, Request.bytes]

theorem State.settlePath_other {r : Request} {stage : Stage} (h : s.path = some ⟨r, stage⟩)
    (hs : ∀ addr direct, stage ≠ .forward addr direct) : s.settlePath = s := by
  cases stage with
  | forward addr direct => exact absurd rfl (hs addr direct)
  | walking | counterRead | operation | drainRead | onLine => simp only [State.settlePath, h]

/-! #### A write-back that completes OKAY (R93) -/

theorem State.lineWritten_redirty (h : (s.line i).redirty = true) : s.lineWritten i = (s.redirtied i).flushDirty i :=
  if_pos h

theorem State.lineWritten_evict (h : (s.line i).redirty = false) (he : (s.line i).evict = true) :
    s.lineWritten i = s.freeLine i :=
  (if_neg (by rw [h]; nofun)).trans (if_pos he)

theorem State.lineWritten_clean (h : (s.line i).redirty = false) (he : (s.line i).evict = false) :
    s.lineWritten i = s.setLine i ((s.line i).written .clean none false) :=
  (if_neg (by rw [h]; nofun)).trans (if_neg (by rw [he]; nofun))

theorem State.flushDirty_unmarked (h : (s.line i).flushMark = false) : s.flushDirty i = s :=
  if_neg fun hd => by rw [h] at hd; cases hd.2

/-- A line that carries no mark is not written again at once. -/
theorem State.lineWritten_unmarked (h : (s.line i).redirty = true) (hm : (s.line i).flushMark = false) :
    s.lineWritten i = s.redirtied i := by
  rw [State.lineWritten_redirty h, State.flushDirty_unmarked]
  rw [State.line_redirtied, if_pos rfl]
  simp [Line.written, hm]

theorem State.redirtied_eq : s.redirtied i = { s with acc := (s.redirtied i).acc } ∧
    (s.redirtied i).acc.writeQueue = s.acc.writeQueue ∧ (s.redirtied i).acc.fillQueue = s.acc.fillQueue ∧
    (s.redirtied i).acc.order = if (s.line i).evict then s.acc.order.filter (· ≠ i) ++ [i] else s.acc.order := by
  simp only [State.redirtied]
  split <;> exact ⟨rfl, rfl, rfl, rfl⟩

theorem State.lineWritten_cases (hm : (s.line i).flushMark = false) :
    s.lineWritten i = { s with acc := (s.lineWritten i).acc } ∧
    (∀ j, j ≠ i → (s.lineWritten i).line j = s.line j) ∧
    (s.lineWritten i).acc.writeQueue = s.acc.writeQueue ∧ (s.lineWritten i).acc.fillQueue = s.acc.fillQueue ∧
    ((s.line i).redirty = true → (s.lineWritten i).line i = (s.line i).written .dirty s.startedAge false ∧
      (s.lineWritten i).acc.order = if (s.line i).evict then s.acc.order.filter (· ≠ i) ++ [i] else s.acc.order) ∧
    ((s.line i).redirty = false → (s.line i).evict = true →
      (s.lineWritten i).line i = Line.empty ∧ (s.lineWritten i).acc.order = s.acc.order.filter (· ≠ i)) ∧
    ((s.line i).redirty = false → (s.line i).evict = false → (s.lineWritten i).acc.order = s.acc.order ∧
      (s.lineWritten i).line i = (s.line i).written .clean none false) := by
  cases h : (s.line i).redirty with
  | true =>
    obtain ⟨heq, hwrite, hfill, horder⟩ := State.redirtied_eq (s := s) (i := i)
    rw [State.lineWritten_unmarked h hm]
    refine ⟨heq, fun j hj => ?_, hwrite, hfill, fun _ => ⟨?_, horder⟩, nofun, nofun⟩
    · rw [State.line_redirtied, if_neg (Ne.symm hj)]
    · rw [State.line_redirtied, if_pos rfl, hm, Bool.false_and]
  | false =>
    cases he : (s.line i).evict with
    | true =>
      rw [State.lineWritten_evict h he]
      refine ⟨rfl, fun j hj => ?_, rfl, rfl, nofun, fun _ _ => ⟨?_, rfl⟩, nofun⟩
      · rw [State.line_freeLine, if_neg (Ne.symm hj)]
      · rw [State.line_freeLine, if_pos rfl]
    | false =>
      rw [State.lineWritten_clean h he]
      refine ⟨rfl, fun j hj => ?_, rfl, rfl, nofun, nofun, fun _ _ => ⟨rfl, ?_⟩⟩
      · rw [State.line_setLine, if_neg (Ne.symm hj)]
      · rw [State.line_setLine, if_pos rfl]

theorem Line.written_unmarked {l : Line} (hm : l.flushMark = false) (st : LineState) (age : Option Nat) :
    l.written st age false = { l with
      state := st, age := age, evict := false, redirty := false, writeCopy := .zero, covers := false } := by
  rw [Line.written, ← hm]

/-- Settles O20: write-backs started by the age timer and by settling, and completed OKAY. -/
theorem writeBacksAreStartedAndSettled : Obligations.WriteBacksAreStartedAndSettled := by
  refine ⟨fun s evict i => rfl, fun s i h hd ha => ⟨exec_ageTimerExpiry h hd ha, fun hp => State.settlePath_none hp,
      fun r addr direct hp => State.settlePath_forward hp, fun r stage hp hs => State.settlePath_other hp hs⟩,
    fun s i => ⟨fun h write => ?_, fun h => ⟨?_, ?_⟩, fun h write => ?_, fun h => ⟨?_, ?_⟩⟩, fun s i hw hm hp hl => ?_,
    fun s i r stage hp hs => ?_⟩
  · obtain h | h := h <;> simp only [State.settleLine, h]
  · simp only [State.settleLine, h]
  · simp only [State.settleLine, h]
  · simp only [State.settleLine, h]
  · simp only [State.settleLine, h]
  · simp only [State.settleLine, h]
  · obtain ⟨heq, hothers, hwrite, hfill, hredirty, hevict, hclean⟩ := State.lineWritten_cases hm
    obtain ⟨hleaving, -, hpath⟩ := s.lineWritten_course i
    refine ⟨s.lineWritten i, ?_, heq, hothers, hwrite, hfill, fun h => ?_, hevict, fun h he => ?_⟩
    · rw [State.completeWriteBack_okay hw, State.afterLine_free (hpath.trans hp) (by rwa [hleaving])]
    · rw [Line.written_unmarked hm] at hredirty
      exact hredirty h
    · rw [Line.written_unmarked hm] at hclean
      exact hclean h he
  · dsimp only
    by_cases h : (s.line i).state = .writing
    · rw [State.completeWriteBack_okay h, State.completeWriteBack_okay (s := { s with path := none }) h]
      exact State.afterLine_kept (fun u p => u.lineWritten_withPath i p) (fun u => (u.lineWritten_course i).2.2) i
        fun u hu => State.resumePath_kept (hu.trans hp) hs
    · rw [State.completeWriteBack, State.completeWriteBack, if_neg h, if_neg (by exact h)]

/-! #### Settling (O60) -/

/-- The line is in use and shares a byte with the access (R101). -/
abbrev Line.meets (addr : Addr) (n : Nat) (l : Line) : Prop :=
  l.inUse ∧ max addr.toNat l.backing.toNat < min (addr.toNat + n) (l.backing.toNat + 8)

theorem Line.overlapped_iff {addr : Addr} {n : Nat} (hn : 0 < n) (l : Line) :
    l.overlapped addr n = true ↔ l.meets addr n := by
  simp only [Line.overlapped, overlaps, Bool.and_eq_true, decide_eq_true_eq]
  exact and_congr_right fun _ => ⟨fun h => by omega, fun h => ⟨hn, by decide, by omega⟩⟩

theorem Line.settled_eq (write : Bool) (l : Line) : l.settled write = match l.state with
    | .dirty => { l with state := .writing, writeCopy := l.record, covers := l.flushMark, evict := write,
                         redirty := false, age := none }
    | .clean => if write then Line.empty else l
    | .writing => if write then { l with evict := true } else l
    | .free | .filling => l := by
  cases h : l.state <;> cases write <;> simp only [Line.settled, h] <;> rfl

theorem State.isSettled_iff {write : Bool} {addr : Addr} {n : Nat} (hn : 0 < n) : s.isSettled write addr n = true ↔
    ∀ i, (s.line i).meets addr n → write = false ∧ (s.line i).state = .clean := by
  rw [State.isSettled, List.all_eq_true]
  refine ⟨fun h i hi => ?_, fun h i _ => ?_⟩
  · have := h i (List.mem_finRange i)
    rw [(Line.overlapped_iff hn _).mpr hi] at this
    simpa using this
  · by_cases hi : (s.line i).meets addr n
    · obtain ⟨hw, hc⟩ := h i hi
      simp [hw, hc]
    · rw [Bool.eq_false_of_not_eq_true (mt (Line.overlapped_iff hn _).mp hi)]
      rfl

theorem State.offer_forward_ne_none {r : Request} {addr : Addr} {direct : Bool}
    (h : s.path = some ⟨r, .forward addr direct⟩) :
    s.offer .path ≠ none ↔ s.isSettled (decide (r.kind = .write)) addr r.shape.bytes = true := by
  simp only [State.offer, State.offerPath, h, ← Request.isWrite_eq, Request.bytes]
  by_cases hs : s.isSettled r.isWrite addr r.shape.bytes = true <;> simp [hs]

/-- Settles O60: the lines the access meets, and the access tried again. -/
theorem settlingTreatsEveryLineTheAccessMeets : Obligations.SettlingTreatsEveryLineTheAccessMeets := by
  intro s r addr direct hn
  dsimp only
  generalize hw : decide (r.kind = .write) = write
  obtain ⟨hnodup, hmem, hsorted⟩ := s.overlappedLines_spec addr r.shape.bytes
  obtain ⟨c, hc, hlines, hwrite, hfill, hage, horder⟩ :=
    State.settleLines_spec write (s.overlappedLines addr r.shape.bytes) s hnodup
  have hin (i : Fin 64) : i ∈ s.overlappedLines addr r.shape.bytes ↔ (s.line i).meets addr r.shape.bytes :=
    (hmem i).trans (Line.overlapped_iff hn _)
  refine ⟨⟨(s.overlappedLines addr r.shape.bytes).filter fun i => decide ((s.line i).state = .dirty), _, hc, rfl,
    hnodup.filter _, fun i => ?_, hsorted.filter _, hwrite, hfill, hage, fun i => ⟨fun h => ?_, fun h => ?_⟩,
    fun i => ?_, ?_⟩, fun hp => ⟨?_, fun i => ⟨fun hl => ?_, ?_⟩⟩⟩
  · rw [List.mem_filter, hin, decide_eq_true_eq]
  · exact (hlines i).trans (if_neg (mt (hin i).mp h))
  · refine ((hlines i).trans (if_pos ((hin i).mpr h))).trans (Line.settled_eq write _) |>.trans ?_
    rfl
  · show i ∈ c.order ↔ _
    rw [horder, List.mem_filter]
    refine and_congr_right fun _ => ?_
    rw [Bool.not_eq_true', ← Bool.not_eq_true, Bool.and_eq_true, Bool.and_eq_true, decide_eq_true_eq,
      decide_eq_true_eq, hin]
    tauto
  · show c.order.Sublist _
    rw [horder]
    exact List.filter_sublist
  · rw [State.offer_forward_ne_none hp, hw, State.isSettled_iff hn]
  · rw [State.afterLine_eq, State.drainLine_outside hl, State.resumePath_forward hp, hw]
  · have hwait : s.waiterOn i = none := by rw [State.waiterOn, hp]
    exact State.completions_tried (f := fun u => u.settle write addr r.shape.bytes) hwait
      (fun u _ => u.settle_reported write addr r.shape.bytes)
      (fun u hu => by rw [State.resumePath_forward (hu.trans hp), hw])

end Sys2Proof.Machine
end

section
/-! SUPPORT. Fills (O19): R89, R90, R106. -/

namespace Sys2Proof.Machine

variable {s : State} {i : Fin 64}

/-! #### The lines after a fill that completes OKAY -/

/-- The cache with the write-back of a marked DIRTY line started (R106). -/
def AccCache.flushed (i : Fin 64) (c : AccCache) : AccCache :=
  if (c.line i).state = .dirty ∧ (c.line i).flushMark = true then
    { c.setLine i ((c.line i).startWrite false) with writeQueue := c.writeQueue ++ [i] }
  else c

theorem State.flushDirty_eq : s.flushDirty i = s.withAcc (s.acc.flushed i) := by
  rw [State.flushDirty, AccCache.flushed]
  by_cases h : (s.line i).state = .dirty ∧ (s.line i).flushMark = true
  · rw [if_pos h, if_pos (by exact h)]
    rfl
  · rw [if_neg h, if_neg (by exact h)]
    rfl

/-- A line filled, and written at once if it is marked and not as fetched (R89, R106). -/
def Line.filledOut (fetched left : Record) (age : Option Nat) (l : Line) : Line :=
  if left = fetched then
    { l with state := .clean, record := left, pending := [], age := none, flushMark := false }
  else if l.flushMark then
    { l with state := .writing, record := left, pending := [], age := none, writeCopy := left, covers := true,
             evict := false, redirty := false }
  else { l with state := .dirty, record := left, pending := [], age := age }

/-- What a fill makes of the lines, whatever the use order becomes. -/
theorem AccCache.flushed_filled {c : AccCache} {l : Line} {fetched left : Record} {age : Option Nat}
    (h : c.line i = l.filled fetched left age) : (c.flushed i).line i = l.filledOut fetched left age ∧
      (∀ j, j ≠ i → (c.flushed i).line j = c.line j) ∧ (c.flushed i).order = c.order ∧
      (c.flushed i).fillQueue = c.fillQueue ∧ (c.flushed i).ageInterval = c.ageInterval ∧
      (c.flushed i).writeQueue = c.writeQueue ++ (if left ≠ fetched ∧ l.flushMark = true then [i] else []) := by
  rw [AccCache.flushed, h]
  by_cases heq : left = fetched
  · simp [Line.filled, Line.filledOut, heq, h]
  · cases hm : l.flushMark with
    | true =>
      simp only [Line.filled, Line.filledOut, if_neg heq, hm, and_self, if_true, Line.startWrite]
      refine ⟨(AccCache.line_setLine c i i _).trans (if_pos rfl), fun j hj =>
        (AccCache.line_setLine c i j _).trans (if_neg (Ne.symm hj)), rfl, rfl, rfl, ?_⟩
      rw [if_pos ⟨heq, trivial⟩]
    | false => simp [Line.filled, Line.filledOut, heq, hm, h]

/-- The cache after a fill, with the line most recently used where `used` says so (R89). -/
def State.filledAcc (i : Fin 64) (fetched left : Record) (used : Bool) (s : State) : AccCache :=
  let c := s.acc.setLine i ((s.line i).filled fetched left s.startedAge)
  (if used then c.touch i else c).flushed i

theorem State.filledAcc_spec (fetched left : Record) (used : Bool) :
    (s.filledAcc i fetched left used).line i = (s.line i).filledOut fetched left s.startedAge ∧
    (∀ j, j ≠ i → (s.filledAcc i fetched left used).line j = s.line j) ∧
    (s.filledAcc i fetched left used).fillQueue = s.acc.fillQueue ∧
    (s.filledAcc i fetched left used).writeQueue = s.acc.writeQueue
      ++ (if left ≠ fetched ∧ (s.line i).flushMark = true then [i] else []) ∧
    (s.filledAcc i fetched left used).ageInterval = s.acc.ageInterval ∧
    (s.filledAcc i fetched left used).order = if used then s.acc.order.filter (· ≠ i) ++ [i] else s.acc.order := by
  have hset (j : Fin 64) := AccCache.line_setLine s.acc i j ((s.line i).filled fetched left s.startedAge)
  cases used with
  | true =>
    obtain ⟨hline, hothers, horder, hfill, hage, hwrite⟩ := AccCache.flushed_filled (i := i)
      (c := (s.acc.setLine i ((s.line i).filled fetched left s.startedAge)).touch i) ((hset i).trans (if_pos rfl))
    exact ⟨hline, fun j hj => (hothers j hj).trans ((hset j).trans (if_neg (Ne.symm hj))), hfill, hwrite, hage, horder⟩
  | false =>
    obtain ⟨hline, hothers, horder, hfill, hage, hwrite⟩ := AccCache.flushed_filled (i := i)
      (c := s.acc.setLine i ((s.line i).filled fetched left s.startedAge)) ((hset i).trans (if_pos rfl))
    exact ⟨hline, fun j hj => (hothers j hj).trans ((hset j).trans (if_neg (Ne.symm hj))), hfill, hwrite, hage, horder⟩

/-! #### The fill's own steps -/

theorem State.lineFilled_okay (data : Payload) : s.lineFilled i .okay data =
    (s.handRecords (applyAll (s.line i).backing (s.line i).pending (.ofLanes data)).2).withAcc
      (s.filledAcc i (.ofLanes data) (applyAll (s.line i).backing (s.line i).pending (.ofLanes data)).1
        (!(s.line i).pending.isEmpty)) := by
  simp only [State.lineFilled, State.filledAcc]
  cases (s.line i).pending.isEmpty with
  | true => exact (congrArg (State.flushDirty i) (s.handRecords_withAcc _ _)).trans State.flushDirty_eq
  | false => exact (congrArg (State.flushDirty i) (s.handRecords_withAcc _ _)).trans State.flushDirty_eq

theorem State.lineFilled_error (data : Payload) : s.lineFilled i .error data =
    { s.handRecord (fillLostRecord (s.line i)) with acc := { s.acc with
      lines := s.acc.lines.set i Line.empty
      order := s.acc.order.filter (· ≠ i) } } :=
  s.handRecord_withAcc _ _

theorem State.settleHold_withAcc (c : AccCache) : (s.withAcc c).settleHold = s.settleHold.withAcc c := by
  cases hp : s.cm.placed with
  | none => rw [State.settleHold_of_none hp, State.settleHold_of_none (by exact hp)]
  | some h =>
    by_cases hf : s.cm.hold = none ∧ s.path = none
    · obtain ⟨hhold, hpath⟩ := hf
      rw [State.settleHold_in_force hp hhold hpath,
        State.settleHold_in_force (by exact hp) (by exact hhold) (by exact hpath)]
      rfl
    · rw [State.settleHold_of_path_or_hold hf, State.settleHold_of_path_or_hold (by exact hf)]

theorem State.completeFill_other {st : Status} {data : Payload} (h : (s.line i).state ≠ .filling) :
    s.completeFill i st data = s := if_neg h

/-- A read that waits on the line, answered when the line has its record (R89). -/
theorem State.fillOkay_waiter {r : Request} {view : View} {id : Nat} {data : Payload}
    (hp : s.path = some ⟨r, .onLine i view⟩) (hid : r.readId = some id) (hl : s.cm.leaving ≠ .draining) :
    s.fillOkay i data = State.linesReported (State.settleHold
      { s.handRecords (applyAll (s.line i).backing (s.line i).pending (.ofLanes data)).2 with
        path := none
        acc := s.filledAcc i (.ofLanes data)
          (view.leaves (applyAll (s.line i).backing (s.line i).pending (.ofLanes data)).1) true
        up := { s.up with reads := s.up.reads.map fun (e : ReadEntry) =>
          if e.id = id then { e with answer := some (okayAnswer
            (view.answer (applyAll (s.line i).backing (s.line i).pending (.ofLanes data)).1)) } else e } }) := by
  have hw : s.waiterOn i = some (r, view) := by rw [State.waiterOn, hp]; exact if_pos rfl
  generalize hes : (applyAll (s.line i).backing (s.line i).pending (.ofLanes data)).2 = es
  generalize hc : (s.acc.setLine i ((s.line i).filled (.ofLanes data) (view.leaves
    (applyAll (s.line i).backing (s.line i).pending (.ofLanes data)).1) s.startedAge)).touch i = c
  have hfill : s.fillOkay i data = State.afterLine i (State.flushDirty i (State.finishPath (State.answerRequest r
      (okayAnswer (view.answer (applyAll (s.line i).backing (s.line i).pending (.ofLanes data)).1))
      ((s.handRecords es).withAcc c)))) := by
    rw [← s.handRecords_withAcc, ← hes, ← hc]
    simp only [State.fillOkay, hw, Option.isNone_some, Bool.and_false, Bool.false_eq_true, if_false, State.answerWaiter]
    rfl
  have hup : (s.handRecords es).up = s.up := (s.handRecords_frame es).1
  have hleaving : (s.handRecords es).cm.leaving = s.cm.leaving := (s.handRecords_course es).1
  rw [hfill, State.answerRequest_id hid, State.finishPath, ← hup]
  generalize s.handRecords es = u at *
  let answered : State := { u with
    path := none
    up := { u.up with reads := u.up.reads.map fun (e : ReadEntry) =>
      if e.id = id then { e with answer := some (okayAnswer
      (view.answer (applyAll (s.line i).backing (s.line i).pending (.ofLanes data)).1)) } else e } }
  have hsettle : (answered.withAcc c).settleHold = answered.settleHold.withAcc c := State.settleHold_withAcc c
  have hacc : s.filledAcc i (.ofLanes data)
      (view.leaves (applyAll (s.line i).backing (s.line i).pending (.ofLanes data)).1) true = c.flushed i :=
    congrArg (AccCache.flushed i) hc
  have hpath : answered.settleHold.path = none := State.settleHold_frame answered |>.2.1
  refine (congrArg (fun t => State.afterLine i (State.flushDirty i t)) hsettle).trans ?_
  rw [State.flushDirty_eq, State.afterLine_free (by exact hpath)
    (by exact fun h => hl (hleaving.symm.trans ((answered.settleHold_course).1.symm.trans h))), hacc]
  exact congrArg State.linesReported (State.settleHold_withAcc (s := answered) (c.flushed i)).symm

/-- A read that waits on a line whose fill completes ERROR (R90). -/
theorem State.fillError_waiter {r : Request} {view : View} {id : Nat}
    (hp : s.path = some ⟨r, .onLine i view⟩) (hid : r.readId = some id) (hl : s.cm.leaving ≠ .draining) :
    s.fillError i = State.linesReported (State.settleHold { s.handRecord (fillLostRecord (s.line i)) with
      path := none
      acc := { s.acc with lines := s.acc.lines.set i Line.empty, order := s.acc.order.filter (· ≠ i) }
      up := { s.up with reads := s.up.reads.map fun (e : ReadEntry) =>
        if e.id = id then { e with answer := some (faultAnswer view.bytes) } else e } }) := by
  have hw : s.waiterOn i = some (r, view) := by rw [State.waiterOn, hp]; exact if_pos rfl
  have hfreed := s.lineFilled_error (i := i) 0
  have hfill : s.fillError i = State.afterLine i (State.finishPath (State.answerRequest r (faultAnswer view.bytes)
      (s.lineFilled i .error 0))) := by
    simp only [State.fillError, hw, State.answerWaiter, State.lineFilled]
  have hup : (s.handRecord (fillLostRecord (s.line i))).up = s.up := (s.handRecord_frame _).1
  have hleaving : (s.handRecord (fillLostRecord (s.line i))).cm.leaving = s.cm.leaving := (s.handRecord_course _).1
  rw [hfill, hfreed, State.answerRequest_id hid, ← hup, State.afterLine_free State.finishPath_path]
  · rfl
  · rw [(State.finishPath_course _).1]
    exact fun h => hl (hleaving.symm.trans h)

/-! #### The records handed over (R89) -/

/-- The pending operations applied as the statement folds them. -/
theorem applyAll_eq_foldl (backing : Addr) (ops : List PendingOp) (fetched : Record) :
    ops.foldl (fun (x : Record × List EventRecord) op => ((evaluate op x.1).record,
      if (evaluate op x.1).fired then x.2 ++ [thresholdRecord op backing x.1 (evaluate op x.1).record] else x.2))
      (fetched, []) = applyAll backing ops fetched := by
  rw [applyAll_fold, List.nil_append]

theorem View.answer_drain (order : Order) (x : Record) :
    (View.drain order).answer x = if order = .big then x.bytes.reverse else x.bytes :=
  Order.arrange_eq_ite order x.bytes

/-- Settles O19: the fill's own steps with a read waiting on the line and without, and what goes on as it is. -/
theorem fillsApplyOrLoseThePendingList : Obligations.FillsApplyOrLoseThePendingList := by
  refine ⟨fun s i data h hl => ?_, fun s i data h hl => ⟨fun hp => ?_, fun r view id hp hid => ?_⟩,
    fun s i st data r stage hp hs => ?_⟩
  · intro l fetched apply applied reported filled
    have happ : applied = applyAll l.backing l.pending (.ofLanes data) := applyAll_eq_foldl l.backing l.pending fetched
    have hfilled (left : Record) (used : Bool) : filled left (s.filledAcc i fetched left used) := by
      obtain ⟨hline, hothers, hfill, hwrite, hage, -⟩ := s.filledAcc_spec (i := i) fetched left used
      exact ⟨hline, hothers, hfill, hwrite, hage⟩
    have horder (left : Record) (used : Bool) : (s.filledAcc i fetched left used).order =
        if used then s.acc.order.filter (· ≠ i) ++ [i] else s.acc.order := by
      obtain ⟨-, -, -, -, -, horder⟩ := s.filledAcc_spec (i := i) fetched left used
      exact horder
    refine ⟨fun hp => ⟨_, ?_, hfilled applied.1 (!l.pending.isEmpty), ?_⟩, fun r view id hp hid => ?_⟩
    · obtain ⟨hleaving, -, hpath⟩ := s.lineFilled_course i .okay data
      rw [State.completeFill_noWaiter h (by rw [State.waiterOn, hp]), State.afterLine_free (hpath.trans hp)
        (by rwa [hleaving]), State.lineFilled_okay, ← happ]
      rfl
    · rw [horder]
      cases l.pending <;> rfl
    · have hwait := State.fillOkay_waiter (data := data) hp hid hl
      rw [← happ] at hwait
      have hexec : s.completeFill i .okay data = s.fillOkay i data := if_pos h
      rw [hexec, hwait]
      cases view with
      | drain order =>
        refine ⟨_, hfilled ((View.drain order).leaves applied.1) true, horder _ true, ?_⟩
        rw [View.answer_drain]
        rfl
      | presented order offset size => exact ⟨_, hfilled applied.1 true, horder _ true, rfl⟩
      | clamped order size => exact ⟨_, hfilled applied.1 true, horder _ true, rfl⟩
  · obtain ⟨hleaving, -, hpath⟩ := s.lineFilled_course i .error data
    rw [State.completeFill_noWaiter h (by rw [State.waiterOn, hp]), State.afterLine_free (hpath.trans hp)
      (by rwa [hleaving]), State.lineFilled_error]
    rfl
  · exact (if_pos h).trans (State.fillError_waiter hp hid hl)
  · have hwait : s.waiterOn i = none := by
      obtain rfl | ⟨backing, view, rfl⟩ | ⟨j, view, hj, rfl⟩ := hs
      · rw [State.waiterOn, hp]
      · rw [State.waiterOn, hp]
      · rw [State.waiterOn, hp]
        exact if_neg hj
    have hkept : stage = .walking ∨ (∃ backing view, stage = .counterRead backing view) ∨
        ∃ j view, stage = .onLine j view :=
      hs.imp_right (·.imp_right fun ⟨j, view, _, hj⟩ => ⟨j, view, hj⟩)
    dsimp only
    by_cases h : (s.line i).state = .filling
    · rw [State.completeFill_noWaiter h hwait, State.completeFill_noWaiter (s := { s with path := none }) h rfl]
      exact State.afterLine_kept (own := State.lineFilled i st data) (fun u p => u.lineFilled_withPath i st data p)
        (fun u => (u.lineFilled_course i st data).2.2) i fun u hu => State.resumePath_kept (hu.trans hp) hkept
    · rw [State.completeFill_other h, State.completeFill_other (by exact h)]

end Sys2Proof.Machine
end

section
/-! SUPPORT. The FLUSH (O38): R91, R105 to R107, R157. -/

namespace Sys2Proof.Machine

variable {s : State} {i : Fin 64}

/-! #### What is reported -/

theorem State.linesReported_outside (h : s.cm.leaving ≠ .draining) : s.linesReported = s.flushCheck := by
  rw [State.linesReported_eq, State.drainedCheck, if_neg]
  rw [State.flushCheck_leaving]
  exact fun hd => h hd.1

theorem State.flushCheck_marked (h : ∃ i, (s.line i).flushMark = true) : s.flushCheck = s := by
  obtain ⟨i, hi⟩ := h
  rw [State.flushCheck_eq, if_neg]
  rw [AccCache.anyMarked_eq_false]
  exact fun hf => by simpa [show (s.acc.line i).flushMark = true from hi] using hf.2 i

theorem State.flushCheck_done {tag : Byte} (hin : s.cm.inProgress = some (.block .flush tag))
    (h : ∀ i, (s.line i).flushMark = false) :
    s.flushCheck = State.formAck ⟨4, tag, some .done, 0⟩ { s with cm := { s.cm with inProgress := none } } := by
  rw [State.flushCheck_eq, if_pos ⟨by rw [State.flushing, hin], (AccCache.anyMarked_eq_false _).mpr h⟩]
  exact State.endRequest_block hin .done

theorem State.flushCheck_spec : s.flushCheck = { s with cm := s.flushCheck.cm } := by
  rw [State.flushCheck_eq]
  split
  · rw [State.endRequest_eq]
    rfl
  · rfl

theorem State.flushCheck_line (j : Fin 64) : s.flushCheck.line j = s.line j := by
  rw [State.flushCheck_spec]
  rfl

/-- The Control Monitor after an ACK depends on the Control Monitor alone. -/
theorem State.formAck_cm_congr {t : State} (h : s.cm = t.cm) (a : Ack) : (s.formAck a).cm = (t.formAck a).cm := by
  rw [State.formAck_eq, State.formAck_eq, h]

/-! #### The lines at the acceptance -/

theorem State.startAllDirty_spec (evict : Bool) :
    s.startAllDirty evict = { s with acc := (s.startAllDirty evict).acc, freeTick := s.freeTick + 1 } ∧
    (∀ j, (s.startAllDirty evict).line j =
      if (s.line j).state = .dirty then (s.line j).startWrite evict else s.line j) ∧
    (s.startAllDirty evict).acc.order = s.acc.order ∧ (s.startAllDirty evict).acc.fillQueue = s.acc.fillQueue ∧
    (s.startAllDirty evict).acc.ageInterval = s.acc.ageInterval ∧
    (s.startAllDirty evict).acc.writeQueue = s.acc.writeQueue
      ++ sortBy (fun i => Config.startRank s.freeTick i.val) (s.linesIn .dirty) := by
  refine ⟨?_, fun j => ?_, ?_, ?_, ?_, ?_⟩
  · simp only [State.startAllDirty, State.withTick, State.withAcc]
  · simp only [State.line, State.startAllDirty, State.withTick, State.withAcc]
    rw [AccCache.line_congr (d := s.acc.mapLines fun _ l => if l.state = .dirty then l.startWrite evict else l)
      (by simp only [])]
    exact AccCache.line_mapLines _ _ j
  all_goals simp only [State.startAllDirty, State.withTick, State.withAcc, AccCache.mapLines]

theorem Line.markForFlush_state (l : Line) : l.markForFlush.state = l.state := by
  cases h : l.state <;> simp [Line.markForFlush, h]

theorem Line.flushed_eq (l : Line) :
    (if l.markForFlush.state = .dirty then l.markForFlush.startWrite false else l.markForFlush) = match l.state with
      | .dirty => { l with state := .writing, writeCopy := l.record, covers := true, evict := false, redirty := false,
                           age := none, flushMark := true }
      | .writing => { l with flushMark := true }
      | .filling => { l with flushMark := !l.pending.isEmpty }
      | .free | .clean => l := by
  cases h : l.state <;> simp [Line.markForFlush, Line.startWrite, h]

theorem State.flushLines_spec :
    s.flushLines = { s with acc := s.flushLines.acc, freeTick := s.flushLines.freeTick } ∧
    (∀ j, s.flushLines.line j = if (s.line j).markForFlush.state = .dirty
      then (s.line j).markForFlush.startWrite false else (s.line j).markForFlush) ∧
    s.flushLines.acc.order = s.acc.order ∧ s.flushLines.acc.fillQueue = s.acc.fillQueue ∧
    s.flushLines.acc.ageInterval = s.acc.ageInterval ∧
    ∃ started : List (Fin 64), started.Perm s.dirtyLines ∧
      s.flushLines.acc.writeQueue = s.acc.writeQueue ++ started := by
  generalize hm : s.withAcc (s.acc.mapLines fun _ l => l.markForFlush) = marked
  have hmarked (j : Fin 64) : marked.line j = (s.line j).markForFlush := by
    rw [← hm]
    exact AccCache.line_mapLines s.acc _ j
  have hflush : s.flushLines = marked.startAllDirty false := by rw [State.flushLines, hm]
  have hacc : marked = { s with acc := marked.acc } ∧ marked.acc.order = s.acc.order ∧
      marked.acc.fillQueue = s.acc.fillQueue ∧ marked.acc.ageInterval = s.acc.ageInterval ∧
      marked.acc.writeQueue = s.acc.writeQueue := by
    rw [← hm]
    simp only [State.withAcc, AccCache.mapLines, and_self]
  obtain ⟨hstate, horder, hfill, hage, hwrite⟩ := hacc
  obtain ⟨heq', hlines', horder', hfill', hage', hwrite'⟩ := State.startAllDirty_spec (s := marked) false
  rw [hflush]
  refine ⟨?_, fun j => by rw [hlines', hmarked], horder'.trans horder, hfill'.trans hfill, hage'.trans hage,
    sortBy (fun i => Config.startRank marked.freeTick i.val) (marked.linesIn .dirty), ?_, by rw [hwrite', hwrite]⟩
  · rw [heq', hstate]
  · refine (sortBy_perm _ _).trans (List.Perm.of_eq ?_)
    rw [State.dirtyLines, State.linesIn, State.linesIn]
    refine List.filter_congr fun j _ => ?_
    rw [hmarked, Line.markForFlush_state]

/-! #### The marked lines at a completion -/

theorem State.flushCheck_outcome {tag : Byte} (hin : s.cm.inProgress = some (.block .flush tag)) :
    ((∃ j, (s.flushCheck.line j).flushMark = true) → s.flushCheck.cm = s.cm) ∧
    ((∀ j, (s.flushCheck.line j).flushMark = false) → s.flushCheck.cm =
      (State.formAck ⟨4, tag, some .done, 0⟩ { s with cm := { s.cm with inProgress := none } }).cm) := by
  simp only [State.flushCheck_line]
  exact ⟨fun h => by rw [State.flushCheck_marked h], fun h => by rw [State.flushCheck_done hin h]⟩

/-- A marked line written OKAY that is not written again (R93, R106). -/
theorem State.lineWritten_cleared (hc : (s.line i).covers = true ∨ (s.line i).redirty = false) :
    s.lineWritten i = { s with acc := (s.lineWritten i).acc } ∧
    (∀ j, j ≠ i → (s.lineWritten i).line j = s.line j) ∧
    (s.lineWritten i).acc.fillQueue = s.acc.fillQueue ∧ (s.lineWritten i).acc.writeQueue = s.acc.writeQueue ∧
    ((s.lineWritten i).line i).flushMark = false ∧
    ((s.lineWritten i).line i).state =
      if (s.line i).redirty then .dirty else if (s.line i).evict then .free else .clean := by
  cases h : (s.line i).redirty with
  | true =>
    obtain ⟨heq, hwrite, hfill, -⟩ := State.redirtied_eq (s := s) (i := i)
    have hcovers : (s.line i).covers = true := hc.resolve_right (by rw [h]; nofun)
    have hline : (s.redirtied i).line i = (s.line i).written .dirty s.startedAge false := by
      rw [State.line_redirtied, if_pos rfl, hcovers, Bool.not_true, Bool.and_false]
    rw [State.lineWritten_redirty h, State.flushDirty_unmarked (by rw [hline]; rfl)]
    refine ⟨heq, fun j hj => ?_, hfill, hwrite, ?_, ?_⟩
    · rw [State.line_redirtied, if_neg (Ne.symm hj)]
    · rw [hline]
      rfl
    · rw [hline]
      rfl
  | false =>
    cases he : (s.line i).evict with
    | true =>
      rw [State.lineWritten_evict h he]
      refine ⟨rfl, fun j hj => ?_, rfl, rfl, ?_, ?_⟩
      · rw [State.line_freeLine, if_neg (Ne.symm hj)]
      all_goals
        rw [State.line_freeLine, if_pos rfl]
        rfl
    | false =>
      rw [State.lineWritten_clean h he]
      refine ⟨rfl, fun j hj => ?_, rfl, rfl, ?_, ?_⟩
      · rw [State.line_setLine, if_neg (Ne.symm hj)]
      all_goals
        rw [State.line_setLine, if_pos rfl]
        rfl

/-- A marked line written with COVERS clear and REDIRTY set is written again at once (R106). -/
theorem State.lineWritten_again (hm : (s.line i).flushMark = true) (hc : (s.line i).covers = false)
    (h : (s.line i).redirty = true) : s.lineWritten i = { s with acc := (s.lineWritten i).acc } ∧
      (∀ j, j ≠ i → (s.lineWritten i).line j = s.line j) ∧
      (s.lineWritten i).acc.fillQueue = s.acc.fillQueue ∧
      (s.lineWritten i).acc.writeQueue = s.acc.writeQueue ++ [i] ∧
      (s.lineWritten i).line i = ((s.line i).written .dirty s.startedAge true).startWrite false := by
  obtain ⟨heq, hwrite, hfill, -⟩ := State.redirtied_eq (s := s) (i := i)
  have hline : (s.redirtied i).line i = (s.line i).written .dirty s.startedAge true := by
    rw [State.line_redirtied, if_pos rfl, hm, hc]
    rfl
  have hagain : s.lineWritten i = (s.redirtied i).startWriteBack false i := by
    rw [State.lineWritten_redirty h, State.flushDirty, if_pos (by rw [hline]; exact ⟨rfl, rfl⟩)]
  rw [hagain]
  refine ⟨?_, fun j hj => ?_, hfill, ?_, ?_⟩
  · rw [heq]
    rfl
  · rw [State.line_startWriteBack, if_neg (Ne.symm hj), State.line_redirtied, if_neg (Ne.symm hj)]
  · rw [← hwrite]
    rfl
  · rw [State.line_startWriteBack, if_pos rfl, hline]

/-- A record handed over changes OVERRUN, and with it the pending STATUS, at the Control Monitor alone. -/
theorem State.handRecord_cm (e : EventRecord) : (s.handRecord e).cm = { s.cm with
    flags := { s.cm.flags with overrun := (s.handRecord e).cm.flags.overrun }
    mirror := { s.cm.mirror with statusPending := (s.handRecord e).cm.mirror.statusPending } } := by
  by_cases h : s.ring.state = .inactive
  · rw [State.handRecord_inactive e h]
  · rw [State.handRecord_active e h]
    split
    · rfl
    · rw [State.raiseOverrun_eq]

theorem State.handRecord_lastAck (e : EventRecord) : (s.handRecord e).cm.mirror.lastAck = s.cm.mirror.lastAck := by
  rw [State.handRecord_cm]

theorem State.handRecords_lastAck (es : List EventRecord) :
    (s.handRecords es).cm.mirror.lastAck = s.cm.mirror.lastAck := by
  induction es generalizing s with
  | nil => rfl
  | cons e es ih => exact (ih (s := s.handRecord e)).trans (s.handRecord_lastAck e)

/-- What a flush reports of a state that agrees on the request in progress and the last ACK. -/
theorem State.flushCheck_lastAck {t : State} {tag : Byte} (hin : t.cm.inProgress = some (.block .flush tag))
    (hlast : t.cm.mirror.lastAck = s.cm.mirror.lastAck) :
    ((∃ j, (t.flushCheck.line j).flushMark = true) → t.flushCheck.cm.inProgress = some (.block .flush tag) ∧
      t.flushCheck.cm.mirror.lastAck = s.cm.mirror.lastAck) ∧
    ((∀ j, (t.flushCheck.line j).flushMark = false) → t.flushCheck.cm.inProgress = none ∧
      t.flushCheck.cm.mirror.lastAck = some ⟨4, tag, some .done, 0⟩) := by
  obtain ⟨hmarked, hdone⟩ := State.flushCheck_outcome hin
  refine ⟨fun h => ?_, fun h => ?_⟩
  · rw [hmarked h]
    exact ⟨hin, hlast⟩
  · rw [hdone h, State.formAck_eq]
    exact ⟨rfl, rfl⟩

section

variable {data : Payload} (hf : (s.line i).state = .filling) (hl : s.cm.leaving ≠ .draining)

include hf hl

/-- A fill that completes with no request held, outside the drain. -/
theorem State.completeFill_free (hp : s.path = none) (st : Status) :
    s.completeFill i st data = (s.lineFilled i st data).flushCheck := by
  obtain ⟨hleaving, -, hpath⟩ := s.lineFilled_course i st data
  rw [State.completeFill_noWaiter hf (by rw [State.waiterOn, hp]), State.afterLine_free (hpath.trans hp)
    (by rwa [hleaving]), State.linesReported_outside (by rwa [hleaving])]

/-- An operation that waited for the line is applied to it once its fill has completed (R87, R89). -/
theorem State.completeFill_thenApplied {r : Request} {op : PendingOp}
    (hp : s.path = some ⟨r, .operation op (s.line i).backing⟩)
    (hu : ∀ j, (s.line j).inUse → (s.line j).backing = (s.line i).backing → j = i)
    (hothers : ∀ j, j ≠ i → (s.lineFilled i .okay data).line j = s.line j)
    (hbacking : ((s.lineFilled i .okay data).line i).backing = (s.line i).backing)
    (hstate : ((s.lineFilled i .okay data).line i).state ∈ [LineState.clean, .dirty, .writing]) :
    s.completeFill i .okay data = (((s.lineFilled i .okay data).applyOp op i).finishPath).flushCheck := by
  obtain ⟨hleaving, -, hpath⟩ := s.lineFilled_course i .okay data
  rw [State.completeFill_noWaiter hf (by rw [State.waiterOn, hp])]
  generalize s.lineFilled i .okay data = v at *
  have hfor : v.lineFor (s.line i).backing = some i := by
    rw [← hbacking]
    refine State.lineFor_eq_some (Line.not_filling_of_present hstate).2 fun j huse hback => ?_
    by_contra hj
    rw [hothers j hj] at huse hback
    exact hj (hu j huse (hback.trans hbacking))
  have hdone : (v.handOperation r op (s.line i).backing).cm.leaving ≠ .draining := by
    rw [(State.handOperation_course r op _ v).1, hleaving]
    exact hl
  rw [State.afterLine_eq, State.drainLine_outside (by rwa [hleaving]), State.resumePath_operation (hpath.trans hp),
    State.linesReported_outside hdone, State.handOperation_present hfor hstate]

end

theorem State.lineFilled_lastAck (st : Status) (data : Payload) :
    (s.lineFilled i st data).cm.mirror.lastAck = s.cm.mirror.lastAck := by
  cases st with
  | okay =>
    rw [State.lineFilled_okay]
    exact State.handRecords_lastAck _
  | error =>
    rw [State.lineFilled_error]
    exact State.handRecord_lastAck _

/-- Settles O38: a FLUSH accepted, and a marked line whose write-back or fill completes. -/
theorem flushMarksAndWritesLines : Obligations.FlushMarksAndWritesLines := by
  refine ⟨fun s tag hword hin hm => ?_, fun s tag i hw hm hp hl hin => ?_, fun s tag i data hf hm hl hin => ?_⟩
  · generalize ht : ({ s.wordTaken with
      cm := { s.wordTaken.cm with inProgress := some (.block .flush tag) } } : State) = t
    have hexec : exec (.flush tag) s = .next t.flushLines.flushCheck := by
      rw [← ht]
      exact exec_instr_carryOut (c := .flush) hword hin (by rw [hm]; rfl)
    obtain ⟨heq, hlines, horder, hfill, hage, started, hperm, hwrite⟩ := State.flushLines_spec (s := t)
    have hcm : t.flushLines.cm = t.cm := by rw [heq]
    have hacc : t.flushLines.flushCheck.acc = t.flushLines.acc := by rw [State.flushCheck_spec]
    have htick : t.flushLines.flushCheck.freeTick = t.flushLines.freeTick := by rw [State.flushCheck_spec]
    obtain ⟨hmarked, hdone⟩ := State.flushCheck_outcome (s := t.flushLines) (tag := tag) (by rw [hcm, ← ht])
    have hspec := State.flushCheck_spec (s := t.flushLines)
    generalize t.flushLines = v at *
    refine ⟨started, _, hexec, ?_, fun j => ?_, ?_, ?_, ?_, ?_, fun h => ?_, fun h => ?_, ?_⟩
    · rw [← ht] at hperm
      exact hperm
    · rw [State.flushCheck_line, hlines, Line.flushed_eq, ← ht]
      rfl
    · rw [hacc, hwrite, ← ht]
      rfl
    · rw [hacc, hfill, ← ht]
      rfl
    · rw [hacc, horder, ← ht]
      rfl
    · rw [hacc, hage, ← ht]
      rfl
    · rw [hmarked h, hcm, ← ht]
    · rw [hdone h]
      refine State.formAck_cm_congr ?_ _
      rw [hcm, ← ht]
      simp only [State.wordTaken, ← hin]
    · calc v.flushCheck
        _ = { v with cm := v.flushCheck.cm } := hspec
        _ = { ({ t with acc := v.acc, freeTick := v.freeTick } : State) with cm := v.flushCheck.cm } :=
            congrArg (fun x : State => { x with cm := v.flushCheck.cm }) heq
        _ = { s with acc := v.flushCheck.acc, cm := v.flushCheck.cm, freeTick := v.flushCheck.freeTick } := by
            rw [hacc, htick, ← ht]
            rfl
  · obtain ⟨hleaving, -, hpath⟩ := s.lineWritten_course i
    have hu : s.completeWriteBack i .okay = (s.lineWritten i).flushCheck := by
      rw [State.completeWriteBack_okay hw, State.afterLine_free (hpath.trans hp) (by rwa [hleaving]),
        State.linesReported_outside (by rwa [hleaving])]
    have hacc : (s.lineWritten i).flushCheck.acc = (s.lineWritten i).acc := by rw [State.flushCheck_spec]
    dsimp only
    rw [hu, hacc]
    simp only [State.flushCheck_line]
    have hspec := State.flushCheck_spec (s := s.lineWritten i)
    have hframe (h : s.lineWritten i = { s with acc := (s.lineWritten i).acc }) :
        (s.lineWritten i).flushCheck =
          { s with acc := (s.lineWritten i).acc, cm := (s.lineWritten i).flushCheck.cm } := by
      generalize s.lineWritten i = v at *
      exact hspec.trans (congrArg (fun x : State => { x with cm := v.flushCheck.cm }) h)
    have hout (h : s.lineWritten i = { s with acc := (s.lineWritten i).acc }) :
        ((∃ j, ((s.lineWritten i).line j).flushMark = true) → (s.lineWritten i).flushCheck.cm = s.cm) ∧
        ((∀ j, ((s.lineWritten i).line j).flushMark = false) → (s.lineWritten i).flushCheck.cm =
          (State.formAck ⟨4, tag, some .done, 0⟩ { s with cm := { s.cm with inProgress := none } }).cm) := by
      have hcm : (s.lineWritten i).cm = s.cm := by rw [h]
      obtain ⟨hmarked, hdone⟩ := State.flushCheck_outcome (s := s.lineWritten i) (tag := tag) (by rw [hcm, hin])
      simp only [State.flushCheck_line] at hmarked hdone
      refine ⟨fun hj => (hmarked hj).trans hcm, fun hj => (hdone hj).trans (State.formAck_cm_congr ?_ _)⟩
      rw [hcm]
    by_cases hc : (s.line i).covers = true ∨ (s.line i).redirty = false
    · obtain ⟨heq, hothers, hfill, hwrite, hmark, hstate⟩ := State.lineWritten_cleared hc
      exact ⟨hframe heq, hothers, hfill, fun _ => ⟨hmark, hwrite, hstate⟩, fun h => absurd hc h, hout heq⟩
    · rw [not_or, Bool.not_eq_true, Bool.not_eq_false] at hc
      obtain ⟨hcovers, hredirty⟩ := hc
      obtain ⟨heq, hothers, hfill, hwrite, hline⟩ := State.lineWritten_again hm hcovers hredirty
      refine ⟨hframe heq, hothers, hfill, fun h => absurd h ?_, fun _ => ?_, hout heq⟩
      · rw [hcovers, hredirty]
        nofun
      · rw [hline, hwrite]
        exact ⟨rfl, rfl, rfl, rfl, rfl, rfl, rfl, rfl⟩
  · have happ : (applyAll (s.line i).backing (s.line i).pending (.ofLanes data)).1 =
        (s.line i).pending.foldl (fun x op => (evaluate op x).record) (Record.decode (data.setWidth 64)) :=
      applyAll_fst _ _ _
    dsimp only
    rw [← happ]
    generalize hout : applyAll (s.line i).backing (s.line i).pending (.ofLanes data) = out
    generalize hacc : s.filledAcc i (.ofLanes data) out.1 (!(s.line i).pending.isEmpty) = c
    have hfilled : s.lineFilled i .okay data = (s.handRecords out.2).withAcc c := by
      rw [State.lineFilled_okay, hout, hacc]
    obtain ⟨hline, hothers, hfill, hwrite, -, -⟩ :=
      s.filledAcc_spec (i := i) (.ofLanes data) out.1 (!(s.line i).pending.isEmpty)
    rw [hacc] at hline hothers hfill hwrite
    refine ⟨fun hp => ?_, fun r op hp hne hu => ?_⟩
    · have hcomplete := State.completeFill_free (data := data) hf hl hp
      have hkept : (s.completeFill i .okay data).acc = c := by
        rw [hcomplete, State.flushCheck_spec, hfilled]
        rfl
      have hkeptLine (j : Fin 64) : (s.completeFill i .okay data).line j = c.line j :=
        congrArg (AccCache.line · j) hkept
      have hlostLine (j : Fin 64) : (s.completeFill i .error data).line j =
          if i = j then Line.empty else s.line j := by
        rw [hcomplete, State.flushCheck_line, State.lineFilled_error]
        exact AccCache.line_setLine s.acc i j _
      have hreport (st : Status) := State.flushCheck_lastAck (s := s) (t := s.lineFilled i st data) (tag := tag)
        (by rw [(s.lineFilled_course i st data).2.1, hin]) (s.lineFilled_lastAck st data)
      simp only [← hcomplete] at hreport
      rw [hkept, hkeptLine i, hline, hfill, hwrite]
      refine ⟨fun j hj => (hkeptLine j).trans (hothers j hj), rfl, fun h => ⟨?_, ?_⟩, fun h => ⟨?_, ?_⟩,
        (hlostLine i).trans (if_pos rfl), fun j hj => (hlostLine j).trans (if_neg (Ne.symm hj)), fun t ht => ?_⟩
      · rw [if_neg fun hn => hn.1 h, List.append_nil]
      · rw [← h]
        exact if_pos h
      · rw [if_pos ⟨h, hm⟩]
      · exact (if_neg h).trans (if_pos hm)
      · simp only [List.mem_cons, List.not_mem_nil, or_false] at ht
        obtain rfl | rfl := ht
        · exact hreport .okay
        · exact hreport .error
    · have hwritten : (s.lineFilled i .okay data).line i = { s.line i with
          state := .writing, record := out.1, pending := [], age := none, writeCopy := out.1, covers := true,
          evict := false, redirty := false } := by
        rw [hfilled]
        exact hline.trans ((if_neg hne).trans (if_pos hm))
      have hstate : ((s.lineFilled i .okay data).line i).state ∈ [LineState.clean, .dirty, .writing] := by
        rw [hwritten]
        exact .tail _ (.tail _ (.head _))
      have hcomplete := State.completeFill_thenApplied hf hl hp hu
        (fun j hj => by rw [hfilled]; exact hothers j hj) (by rw [hwritten]) hstate
      obtain ⟨happlied, -⟩ := State.applyOp_spec (op := op) hstate
      rw [hcomplete]
      refine ⟨?_, ?_⟩
      · rw [State.flushCheck_spec]
        exact State.finishPath_path
      · rw [State.flushCheck_line, State.finishPath_line, happlied, hwritten]
        rfl

end Sys2Proof.Machine
end

section
/-! SUPPORT. The drain and the discard (O39): R108, R110, R149, R150. -/

namespace Sys2Proof.Machine

variable {s v w : State} {i : Fin 64}

/-! #### The check for the drained cache -/

theorem State.drainedCheck_draining (h : s.cm.leaving = .draining) : s.drainedCheck = { s with cm := { s.cm with
    leaving := if ∀ j, (s.line j).state = .free then .releasing else .draining } } := by
  rw [State.drainedCheck]
  by_cases hfree : ∀ j, (s.line j).state = .free
  · rw [if_pos ⟨h, (AccCache.allFree_eq_true _).mpr hfree⟩, if_pos hfree]
    rfl
  · rw [if_neg fun hd => hfree ((AccCache.allFree_eq_true _).mp hd.2), if_neg hfree, ← h]

/-! #### The lines when DRAINING begins -/

theorem Line.beginDrain_state (l : Line) :
    l.beginDrain.state = .dirty ↔ l.state = .dirty := by
  cases h : l.state <;> simp [Line.beginDrain, h, Line.empty]

theorem Line.drainBegun_eq (l : Line) :
    (if l.beginDrain.state = .dirty then l.beginDrain.startWrite true else l.beginDrain) = match l.state with
      | .clean => Line.empty
      | .dirty => { l with state := .writing, writeCopy := l.record, covers := false, evict := true, redirty := false,
                           age := none, flushMark := false }
      | .writing => { l with flushMark := false, evict := true }
      | .free | .filling => { l with flushMark := false } := by
  cases h : l.state <;> simp [Line.beginDrain, Line.startWrite, Line.empty, h]

/-- The lines as the drain begins are FREE where they were before the DIRTY ones started. -/
theorem Line.drainBegun_free (l : Line) :
    (if l.beginDrain.state = .dirty then l.beginDrain.startWrite true else l.beginDrain).state = .free ↔
      l.beginDrain.state = .free := by
  by_cases h : l.beginDrain.state = .dirty
  · rw [if_pos h, h, Line.startWrite]
    simp
  · rw [if_neg h]

theorem State.drainLines_spec :
    s.drainLines = { s with acc := s.drainLines.acc, freeTick := s.drainLines.freeTick } ∧
    (∀ j, s.drainLines.line j = if (s.line j).beginDrain.state = .dirty
      then (s.line j).beginDrain.startWrite true else (s.line j).beginDrain) ∧
    s.drainLines.acc.order = s.acc.order.filter (fun j => decide ((s.drainLines.line j).state ≠ .free)) ∧
    s.drainLines.acc.fillQueue = s.acc.fillQueue ∧ s.drainLines.acc.ageInterval = s.acc.ageInterval ∧
    ∃ started : List (Fin 64), started.Perm s.dirtyLines ∧
      s.drainLines.acc.writeQueue = s.acc.writeQueue ++ started := by
  generalize hm : s.acc.mapLines (fun _ l => l.beginDrain) = c
  have hc (j : Fin 64) : c.line j = (s.line j).beginDrain := by
    rw [← hm]
    exact AccCache.line_mapLines s.acc _ j
  have hqueues : c.order = s.acc.order ∧ c.fillQueue = s.acc.fillQueue ∧ c.ageInterval = s.acc.ageInterval ∧
      c.writeQueue = s.acc.writeQueue := by
    rw [← hm]
    simp only [AccCache.mapLines, and_self]
  obtain ⟨horder, hfill, hage, hwrite⟩ := hqueues
  generalize hmarked : s.withAcc { c with order := c.order.filter fun i => (c.line i).state ≠ .free } = marked
  have hmline (j : Fin 64) : marked.line j = (s.line j).beginDrain := by
    rw [← hc, ← hmarked]
    exact AccCache.line_congr rfl j
  have hdrain : s.drainLines = marked.startAllDirty true := by
    rw [State.drainLines, hm, ← hmarked]
  have hmacc : marked = { s with acc := marked.acc } ∧
      marked.acc.order = s.acc.order.filter (fun j => decide ((s.line j).beginDrain.state ≠ .free)) ∧
      marked.acc.fillQueue = s.acc.fillQueue ∧ marked.acc.ageInterval = s.acc.ageInterval ∧
      marked.acc.writeQueue = s.acc.writeQueue := by
    rw [← hmarked]
    refine ⟨rfl, ?_, hfill, hage, hwrite⟩
    simp only [State.withAcc, horder, hc]
  obtain ⟨hmstate, hmorder, hmfill, hmage, hmwrite⟩ := hmacc
  obtain ⟨heq, hlines, horder', hfill', hage', hwrite'⟩ := State.startAllDirty_spec (s := marked) true
  have hdrained (j : Fin 64) : s.drainLines.line j = if (s.line j).beginDrain.state = .dirty
      then (s.line j).beginDrain.startWrite true else (s.line j).beginDrain := by
    rw [hdrain, hlines, hmline]
  refine ⟨?_, hdrained, ?_, ?_, ?_, sortBy (fun i => Config.startRank marked.freeTick i.val) (marked.linesIn .dirty),
    ?_, ?_⟩
  · rw [hdrain, heq, hmstate]
  · rw [hdrain, horder', hmorder, ← hdrain]
    simp only [hdrained, ne_eq, Line.drainBegun_free]
  · rw [hdrain, hfill', hmfill]
  · rw [hdrain, hage', hmage]
  · refine (sortBy_perm _ _).trans (List.Perm.of_eq ?_)
    rw [State.dirtyLines, State.linesIn, State.linesIn]
    refine List.filter_congr fun j _ => ?_
    rw [hmline, Bool.decide_congr (Line.beginDrain_state _)]
  · rw [hdrain, hwrite', hmwrite]

theorem exec_drainBegin (h : s.current) (hh : s.cm.hold = some .drainStart) (hl : s.cm.leaving = .starting) :
    exec .drainBegin s = .next s.beginDrain := by
  obtain ⟨hr, hw⟩ := h
  show Host.Outcome.next _ = _
  rw [State.afterWords_none hw, if_pos ⟨hh, hl, hr⟩]

theorem State.beginDrain_eq (hp : s.cm.placed = none) : s.beginDrain =
    { (s.withWindows []).drainLines with cm := { s.cm with
      hold := none
      leaving := if ∀ j, ((s.withWindows []).drainLines.line j).state = .free then .releasing else .draining } } := by
  have hcm : (s.withWindows []).drainLines.cm = s.cm := by
    rw [(State.drainLines_spec (s := s.withWindows [])).1]
    rfl
  rw [State.beginDrain]
  generalize (s.withWindows []).drainLines = t at *
  rw [← hcm] at hp
  dsimp only
  rw [State.releaseHold_of_none (by exact hp), State.drainedCheck_draining rfl, ← hcm]
  rfl

/-! #### A line that changes during the drain -/

/-- What a line's own completion leaves as it is during the drain, before the cache reports itself drained. -/
structure State.DrainStep (s : State) (i : Fin 64) (v : State) : Prop where
  others : ∀ j, j ≠ i → v.line j = s.line j
  fillQueue : v.acc.fillQueue = s.acc.fillQueue
  path : v.path = none
  up : v.up = s.up
  windows : v.windows = s.windows
  mode : v.cm.mode = s.cm.mode
  inProgress : v.cm.inProgress = s.cm.inProgress
  leaving : v.cm.leaving = .draining

theorem State.DrainStep.freeLine (h : s.DrainStep i v) : s.DrainStep i (v.freeLine i) where
  __ := h
  others j hj := by rw [State.line_freeLine, if_neg (Ne.symm hj), h.others j hj]

theorem State.DrainStep.startWriteBack (h : s.DrainStep i v) (evict : Bool) :
    s.DrainStep i (v.startWriteBack evict i) where
  __ := h
  others j hj := by rw [State.line_startWriteBack, if_neg (Ne.symm hj), h.others j hj]

/-- What a completion during the drain leaves as it is, once everything is reported. -/
abbrev State.DrainEnd (s : State) (i : Fin 64) (u : State) : Prop :=
  (∀ j, j ≠ i → u.line j = s.line j) ∧ u.acc.fillQueue = s.acc.fillQueue ∧ u.path = none ∧ u.up = s.up ∧
  u.windows = s.windows ∧ u.cm.mode = s.cm.mode ∧ u.cm.inProgress = s.cm.inProgress ∧
  u.cm.leaving = if ∀ j, (u.line j).state = .free then .releasing else .draining

theorem State.DrainStep.reported (h : s.DrainStep i w) (hf : s.flushing = false) (hd : v.drainLine i = w) :
    s.DrainEnd i (v.afterLine i) ∧ (v.afterLine i).line i = w.line i ∧
      (v.afterLine i).acc.writeQueue = w.acc.writeQueue := by
  have hflush : w.flushCheck = w := by
    rw [State.flushCheck_eq, if_neg]
    rw [State.flushing, h.inProgress, ← State.flushing, hf]
    exact fun ⟨hn, _⟩ => by cases hn
  rw [State.afterLine, hd, State.resumePath_none h.path, hflush, State.drainedCheck_draining h.leaving]
  exact ⟨⟨h.others, h.fillQueue, h.path, h.up, h.windows, h.mode, h.inProgress, rfl⟩, rfl, rfl⟩

/-- A line that has become CLEAN, or FREE, is FREE after the drain has treated it. -/
theorem State.DrainStep.freed (h : s.DrainStep i v) (hf : s.flushing = false)
    (hi : (v.line i).state = .clean ∨ v.line i = Line.empty) : s.DrainEnd i (v.afterLine i) ∧
      (v.afterLine i).line i = Line.empty ∧ (v.afterLine i).acc.writeQueue = v.acc.writeQueue := by
  obtain hi | hi := hi
  · obtain ⟨hend, hline, hwrite⟩ := h.freeLine.reported hf (v := v) 
      (by simp only [State.drainLine, if_pos h.leaving, hi])
    refine ⟨hend, hline.trans ?_, hwrite⟩
    rw [State.line_freeLine, if_pos rfl]
  · obtain ⟨hend, hline, hwrite⟩ := h.reported hf (v := v)
      (by simp only [State.drainLine, if_pos h.leaving, hi, Line.empty])
    exact ⟨hend, hline.trans hi, hwrite⟩

/-- A line that has become DIRTY is WRITING after the drain has treated it. -/
theorem State.DrainStep.started (h : s.DrainStep i v) (hf : s.flushing = false) (hi : (v.line i).state = .dirty) :
    s.DrainEnd i (v.afterLine i) ∧ (v.afterLine i).line i = (v.line i).startWrite true ∧
      (v.afterLine i).acc.writeQueue = v.acc.writeQueue ++ [i] := by
  obtain ⟨hend, hline, hwrite⟩ := (h.startWriteBack true).reported hf (v := v)
    (by simp only [State.drainLine, if_pos h.leaving, hi])
  refine ⟨hend, hline.trans ?_, hwrite⟩
  rw [State.line_startWriteBack, if_pos rfl]

/-! #### The completions -/

theorem State.handRecord_mode (e : EventRecord) : (s.handRecord e).cm.mode = s.cm.mode := by
  rw [State.handRecord_cm]

theorem State.handRecords_mode (es : List EventRecord) : (s.handRecords es).cm.mode = s.cm.mode := by
  induction es generalizing s with
  | nil => rfl
  | cons e es ih => exact (ih (s := s.handRecord e)).trans (s.handRecord_mode e)

section

variable (hp : s.path = none) (hl : s.cm.leaving = .draining)

include hp hl

theorem State.lineWritten_drainStep (hm : (s.line i).flushMark = false) : s.DrainStep i (s.lineWritten i) := by
  obtain ⟨heq, hothers, -, hfill, -⟩ := State.lineWritten_cases hm
  obtain ⟨hleaving, hprogress, hpath⟩ := s.lineWritten_course i
  refine ⟨hothers, hfill, hpath.trans hp, ?_, ?_, ?_, hprogress, hleaving.trans hl⟩
  all_goals rw [heq]

theorem State.lineFilled_drainStep (st : Status) (data : Payload) : s.DrainStep i (s.lineFilled i st data) := by
  obtain ⟨hleaving, hprogress, hpath⟩ := s.lineFilled_course i st data
  have hframe : (∀ j, j ≠ i → (s.lineFilled i st data).line j = s.line j) ∧
      (s.lineFilled i st data).acc.fillQueue = s.acc.fillQueue ∧ (s.lineFilled i st data).up = s.up ∧
      (s.lineFilled i st data).windows = s.windows ∧ (s.lineFilled i st data).cm.mode = s.cm.mode := by
    cases st with
    | okay =>
      obtain ⟨hup, -, -, hwindows, -⟩ := s.handRecords_frame
        (applyAll (s.line i).backing (s.line i).pending (.ofLanes data)).2
      obtain ⟨-, hothers, hfill, -⟩ := s.filledAcc_spec (i := i) (.ofLanes data)
        (applyAll (s.line i).backing (s.line i).pending (.ofLanes data)).1 (!(s.line i).pending.isEmpty)
      rw [State.lineFilled_okay]
      exact ⟨hothers, hfill, hup, hwindows, State.handRecords_mode _⟩
    | error =>
      obtain ⟨hup, -, -, hwindows, -⟩ := s.handRecord_frame (fillLostRecord (s.line i))
      rw [State.lineFilled_error]
      exact ⟨fun j hj => (AccCache.line_setLine s.acc i j _).trans (if_neg (Ne.symm hj)), rfl, hup, hwindows,
        State.handRecord_mode _⟩
  obtain ⟨hothers, hfill, hup, hwindows, hmode⟩ := hframe
  exact ⟨hothers, hfill, hpath.trans hp, hup, hwindows, hmode, hprogress, hleaving.trans hl⟩

end

/-! #### The discard -/

theorem Slot.cacheTraffic_iff (x : Slot) : x.cacheTraffic = true ↔ ∃ (k : Fin 64) (q : MemRequest) (p : Purpose),
    (p = .fill k ∨ p = .writeBack k) ∧ (x.state = .waiting q p ∨ ∃ st data, x.state = .held q p st data) := by
  refine ⟨fun h => ?_, fun ⟨k, q, p, hp, hx⟩ => ?_⟩
  · rw [Slot.cacheTraffic] at h
    split at h
    case h_1 q k hx => exact ⟨k, q, _, .inl rfl, .inl hx⟩
    case h_2 q k hx => exact ⟨k, q, _, .inr rfl, .inl hx⟩
    case h_3 q k st data hx => exact ⟨k, q, _, .inl rfl, .inr ⟨st, data, hx⟩⟩
    case h_4 q k st data hx => exact ⟨k, q, _, .inr rfl, .inr ⟨st, data, hx⟩⟩
    case h_5 => cases h
  · obtain rfl | rfl := hp <;> obtain hx | ⟨st, data, hx⟩ := hx <;> simp only [Slot.cacheTraffic, hx]

theorem DownPort.cacheInFlight_iff (d : DownPort) : d.cacheInFlight = true ↔
    ∃ (i : Fin 8) (k : Fin 64) (q : MemRequest), (∃ p, (p = .fill k ∨ p = .writeBack k) ∧
      ((d.slot i).state = .waiting q p ∨ ∃ st data, (d.slot i).state = .held q p st data)) := by
  rw [DownPort.cacheInFlight, List.any_eq_true]
  simp only [List.mem_finRange, true_and, Slot.cacheTraffic_iff]

theorem exec_discard (h : s.current) (hl : s.cm.leaving = .discarding) :
    exec .discard s = .next (if s.down.cacheInFlight = false then s.discardLines else s) := by
  obtain ⟨hr, hw⟩ := h
  show Host.Outcome.next _ = _
  rw [State.afterWords_none hw]
  refine congrArg _ (if_congr ?_ rfl rfl)
  exact ⟨fun ⟨_, hc, _⟩ => hc, fun hc => ⟨hl, hc, hr⟩⟩

theorem State.discardLines_eq : s.discardLines = { s with
    acc := ⟨Vector.replicate 64 Line.empty, [], [], [], s.acc.ageInterval⟩
    cm := { s.cm with
      flags := { s.cm.flags with dataLost := true }
      leaving := .releasing
      mirror := { s.cm.mirror with statusPending := s.cm.mirror.statusPending || !s.cm.flags.dataLost } } } := by
  rw [State.discardLines]
  dsimp only
  rw [State.raiseDataLost_eq]
  rfl

/-- Settles O39: the drain begun, the lines whose completion comes during it, and the discard. -/
theorem theDrainAndTheDiscardFreeLines : Obligations.TheDrainAndTheDiscardFreeLines := by
  refine ⟨fun s h hh hl hp => ?_, fun s i data hp hl hf hm => ?_, fun s h hl => ?_⟩
  · obtain ⟨heq, hlines, horder, hfill, hage, started, hperm, hwrite⟩ := State.drainLines_spec (s := s.withWindows [])
    have hdrain := State.beginDrain_eq hp
    have hexec := exec_drainBegin h hh hl
    generalize (s.withWindows []).drainLines = t at *
    rw [hdrain] at hexec
    refine ⟨started, _, hexec, hperm, fun j => ?_, horder, hwrite, hfill, ?_, rfl, ?_⟩
    · exact (hlines j).trans (Line.drainBegun_eq _)
    · show t.windows = []
      rw [heq]
      rfl
    · exact congrArg (fun x : State => { x with windows := t.windows, cm := { s.cm with
        hold := none
        leaving := (if ∀ j, (t.line j).state = LineState.free then Leaving.releasing else .draining) } }) heq
  · have happ : (applyAll (s.line i).backing (s.line i).pending (.ofLanes data)).1 =
        (s.line i).pending.foldl (fun x op => (evaluate op x).record) (Record.decode (data.setWidth 64)) :=
      applyAll_fst _ _ _
    obtain ⟨-, -, hwrite, -, hredirty, hevict, hclean⟩ := State.lineWritten_cases hm
    have hwritten := State.lineWritten_drainStep hp hl hm
    have hfilled (st : Status) := State.lineFilled_drainStep (i := i) hp hl st data
    have hwait : s.waiterOn i = none := by rw [State.waiterOn, hp]
    dsimp only
    rw [← happ]
    generalize hout : applyAll (s.line i).backing (s.line i).pending (.ofLanes data) = out
    obtain ⟨hline, -, -, hqueue, -⟩ :=
      s.filledAcc_spec (i := i) (.ofLanes data) out.1 (!(s.line i).pending.isEmpty)
    rw [hm, if_neg (by simp), List.append_nil] at hqueue
    have hokay := State.lineFilled_okay (s := s) (i := i) data
    rw [hout] at hokay
    have hleft : (s.lineFilled i .okay data).line i =
        (s.line i).filledOut (.ofLanes data) out.1 s.startedAge := by
      rw [hokay]
      exact hline
    have hkept : (s.lineFilled i .okay data).acc.writeQueue = s.acc.writeQueue := by
      rw [hokay]
      exact hqueue
    refine ⟨fun h hr => ?_, fun h hr => ?_, fun h heq => ?_, fun h hne => ?_, fun h => ?_⟩
    · rw [State.completeWriteBack_okay h]
      obtain ⟨hend, hfree, hq⟩ := hwritten.freed hf (by
        cases he : (s.line i).evict with
        | true => exact .inr (hevict hr he).1
        | false =>
          rw [(hclean hr he).2]
          exact .inl rfl)
      exact ⟨hend, hfree, hq.trans hwrite⟩
    · rw [State.completeWriteBack_okay h]
      obtain ⟨hend, hstarted, hq⟩ := hwritten.started hf (by rw [(hredirty hr).1]; rfl)
      refine ⟨hend, hstarted.trans ?_, hq.trans (by rw [hwrite])⟩
      rw [(hredirty hr).1, Line.written_unmarked hm]
      simp only [Line.startWrite, hm]
    · rw [State.completeFill_noWaiter h hwait]
      obtain ⟨hend, hfree, hq⟩ := (hfilled .okay).freed hf (.inl (by
        rw [hleft, Line.filledOut, if_pos (by exact heq)]))
      exact ⟨hend, hfree, hq.trans hkept⟩
    · have hdirty : (s.lineFilled i .okay data).line i =
          { s.line i with state := .dirty, record := out.1, pending := [], age := s.startedAge } := by
        rw [hleft, Line.filledOut, if_neg (by exact hne), if_neg (by rw [hm]; nofun)]
      rw [State.completeFill_noWaiter h hwait]
      obtain ⟨hend, hstarted, hq⟩ := (hfilled .okay).started hf (by rw [hdirty])
      refine ⟨hend, hstarted.trans ?_, hq.trans (by rw [hkept])⟩
      rw [hdirty]
      simp only [Line.startWrite, hm]
    · rw [State.completeFill_noWaiter h hwait]
      obtain ⟨hend, hfree, hq⟩ := (hfilled .error).freed hf (.inr (by
        rw [State.lineFilled_error]
        exact (AccCache.line_setLine s.acc i i _).trans (if_pos rfl)))
      refine ⟨hend, hfree, hq.trans ?_⟩
      rw [State.lineFilled_error]
  · have hexec := exec_discard h hl
    refine ⟨fun hno => ?_, fun hin => ?_⟩
    · rw [hexec, if_pos (Bool.eq_false_of_not_eq_true (mt s.down.cacheInFlight_iff.mp hno)), State.discardLines_eq]
    · rw [hexec, if_neg (by rw [s.down.cacheInFlight_iff.mpr hin]; nofun)]

end Sys2Proof.Machine
end

section
/-! SUPPORT. The Upstream Port (O22), the exact-cover rule (O25), and the responses that complete nothing (O26):
R112 to R114, R118, R123, R124, R145. -/

namespace Sys2Proof.Machine

variable {s : State} {i : Fin 8}

/-! #### The intake queue and the order list -/

theorem State.acceptHigh_iff : s.acceptHigh = true ↔
    s.running ∧ s.up.restarting = false ∧ s.up.intake.length < 16 ∧ s.up.reads.length < 16 := by
  simp only [State.acceptHigh, State.running, Bool.and_eq_true, Bool.not_eq_true', decide_eq_true_eq,
    show Config.portDepth = 16 from rfl]
  tauto

theorem exec_upstreamRequest {b : BusRequest} (h : b.wf = true) :
    exec (.upstreamRequest b) s = .next (if s.acceptHigh = true then s.accept b else s) := if_pos h

theorem State.takeAnswer_ready {e : ReadEntry} {rest : List ReadEntry} (hr : s.up.reads = e :: rest)
    (ha : e.answer ≠ none) : s.takeAnswer = { s with up := { s.up with
      reads := rest, restarting := s.up.restarting && !rest.isEmpty } } := by
  simp only [State.takeAnswer, hr, if_pos (Option.isSome_iff_ne_none.mpr ha), State.withUp]

theorem State.takeAnswer_waiting {e : ReadEntry} {rest : List ReadEntry} (hr : s.up.reads = e :: rest)
    (ha : e.answer = none) : s.takeAnswer = s := by
  simp [State.takeAnswer, hr, ha]

theorem State.takeAnswer_empty (hr : s.up.reads = []) : s.takeAnswer = s := by
  simp only [State.takeAnswer, hr]

theorem exec_readAnswerTaken (h : s.running) : exec .readAnswerTaken s = .next s.takeAnswer :=
  congrArg _ (if_neg (by rw [h]; nofun))

/-- Settles O22: the accept line high or low, and the head of the order list ready, waiting or absent. -/
theorem theUpstreamPortKeepsOrder : Obligations.TheUpstreamPortKeepsOrder := by
  refine ⟨fun s b hb => ⟨fun hh hk => ?_, fun hh hk => ?_, fun hh => ?_⟩, fun s h => ⟨fun e rest hr ha => ?_,
    fun e rest hr ha => ?_, fun hr => ?_⟩⟩
  · rw [exec_upstreamRequest hb, if_pos (State.acceptHigh_iff.mpr hh)]
    simp [State.accept, storedRequest, hk, State.withUp]
  · rw [exec_upstreamRequest hb, if_pos (State.acceptHigh_iff.mpr hh)]
    simp [State.accept, storedRequest, hk, State.withUp]
  · rw [exec_upstreamRequest hb, if_neg (mt State.acceptHigh_iff.mp hh)]
  · rw [exec_readAnswerTaken h, State.takeAnswer_ready hr ha]
  · rw [exec_readAnswerTaken h, State.takeAnswer_waiting hr ha]
  · rw [exec_readAnswerTaken h, State.takeAnswer_empty hr]

/-! #### The exact-cover rule -/

theorem leNat_take_two {bytes : List Byte} (h : 2 ≤ bytes.length) :
    leNat (bytes.take 2) = (bytes.getD 0 0).toNat + 256 * (bytes.getD 1 0).toNat := by
  match bytes, h with
  | b :: c :: _, _ => simp [leNat]

theorem controlWordAt_toList (cb : Addr) (a : Nat) {bytes : List Byte} (h : 2 ≤ bytes.length) :
    (controlWordAt cb a bytes).toList =
      if a = cb.toNat + 0x40 then [.request (bytes.getD 0 0) (bytes.getD 1 0)]
      else if a = cb.toNat + 0x48 then
        [.consumed (BitVec.ofNat 16 ((bytes.getD 0 0).toNat + 256 * (bytes.getD 1 0).toNat))]
      else [] := by
  rw [controlWordAt, leNat_take_two h, requestOffset, consumedOffset]
  split
  · rfl
  · split <;> rfl

/-- Settles O25: a single write of 8 bytes, one of another size, and the beats of a burst. -/
theorem wordsAreRecognisedByExactCover : Obligations.WordsAreRecognisedByExactCover := by
  intro cb addr data
  refine ⟨fun h => controlWordAt_toList cb _ h, fun size h => ?_, fun beats h => ?_⟩
  · cases size with
    | b8 => exact absurd rfl h
    | b1 | b2 | b4 => rfl
  · show List.filterMap _ _ = _
    rw [List.filterMap_eq_flatMap_toList]
    refine List.flatMap_congr fun k hk => controlWordAt_toList cb _ ?_
    rw [List.length_drop]
    have := List.mem_range.mp hk
    omega

/-! #### Responses that complete nothing -/

theorem exec_downstreamResponse (h : s.cm.recognised = []) (st : Status) (data : Payload) :
    exec (.downstreamResponse i st data) s = .next (s.respond i st data) := by
  show Host.Outcome.next _ = _
  rw [State.afterWords_none h]

theorem DownPort.isOldest_iff (d : DownPort) : d.isOldest i = true ↔ d.issueOrder.head? = some i := beq_iff_eq

section

variable {st : Status} {data : Payload} (ho : (s.down.slot i).owes = false)

include ho

theorem State.respond_free (hx : (s.down.slot i).state = .free) : s.respond i st data = s := by
  simp only [State.respond, ho, hx, Bool.false_eq_true, if_false]

theorem State.respond_held {q : MemRequest} {p : Purpose} {st' : Status} {data' : Payload}
    (hx : (s.down.slot i).state = .held q p st' data') : s.respond i st data = s := by
  simp only [State.respond, ho, hx, Bool.false_eq_true, if_false]

theorem State.respond_stale {counting : Bool} (hx : (s.down.slot i).state = .stale counting) :
    s.respond i st data = s.withDown (s.down.setSlot i ⟨.free, false⟩) := by
  simp only [State.respond, State.setSlotState, ho, hx, Bool.false_eq_true, if_false]

theorem State.respond_younger {q : MemRequest} {p : Purpose} (hx : (s.down.slot i).state = .waiting q p)
    (hold : s.down.issueOrder.head? ≠ some i) :
    s.respond i st data = s.withDown (s.down.setSlot i ⟨.held q p st data, false⟩) := by
  simp only [State.respond, State.setSlotState, ho, hx, Bool.false_eq_true, if_false,
    if_neg (mt s.down.isOldest_iff.mp hold)]

theorem State.respond_oldest {q : MemRequest} {p : Purpose} (hx : (s.down.slot i).state = .waiting q p)
    (hold : s.down.issueOrder.head? = some i) :
    s.respond i st data = (s.completeOldest i .free p st data).deliverHeld 8 := by
  simp only [State.respond, ho, hx, Bool.false_eq_true, if_false, if_pos (s.down.isOldest_iff.mpr hold)]

end

theorem State.expire_oldest {q : MemRequest} {p : Purpose} (hx : (s.down.slot i).state = .waiting q p)
    (hold : s.down.issueOrder.head? = some i) :
    s.expire i = (s.completeOldest i (.stale true) p .error 0).deliverHeld 8 := by
  simp only [State.expire, hx, if_pos (s.down.isOldest_iff.mpr hold)]

/-- Settles O26: a response by the state of its slot, and the end of a STALE period. -/
theorem responsesThatCompleteNothing : Obligations.ResponsesThatCompleteNothing := by
  refine ⟨fun s i st data hw => ⟨fun ho => ?_, fun ho hx => ?_, fun q p st' data' ho hx => ?_, fun counting ho hx => ?_,
    fun q p ho hx hold => ?_⟩, fun s i hx => ?_⟩
  · rw [exec_downstreamResponse hw, State.respond, if_pos (by exact ho)]
    rfl
  · rw [exec_downstreamResponse hw, State.respond_free ho hx]
  · rw [exec_downstreamResponse hw, State.respond_held ho hx]
  · rw [exec_downstreamResponse hw, State.respond_stale ho hx]
    rfl
  · rw [exec_downstreamResponse hw, State.respond_younger ho hx hold]
    rfl
  · show Host.Outcome.next (s.endStale i) = _
    simp only [State.endStale, hx]
    rfl

end Sys2Proof.Machine
end

section
/-! SUPPORT. The completion of the oldest request and of the HELD ones behind it (O27): R99, R115, R119, R120,
R123 to R125. -/

namespace Sys2Proof.Machine

variable {s u : State} {i j : Fin 8}

/-! #### The HELD slots behind the oldest -/

/-- The HELD slot `j` of the port as it stood in `s` completes with the response it holds (R123). -/
def State.completeHeld (s u : State) (j : Fin 8) : State :=
  match (s.down.slot j).state with
  | .held _ p st data => State.complete p st data { u with down := { u.down with
      slots := u.down.slots.set j { s.down.slot j with state := .free }
      issueOrder := u.down.issueOrder.tail } }
  | .free | .waiting _ _ | .stale _ => u

theorem State.completeHeld_eq {q : MemRequest} {p : Purpose} {st : Status} {data : Payload}
    (h : (s.down.slot j).state = .held q p st data) (hu : u.down.slot j = s.down.slot j) :
    s.completeHeld u j = u.completeOldest j .free p st data := by
  simp only [State.completeHeld, h, State.completeOldest, State.setSlotState, hu]
  rfl

theorem State.deliverHeld_done (n : Nat) (h : ∀ j ∈ u.down.issueOrder.head?, (u.down.slot j).state.isWaiting = true) :
    u.deliverHeld n = u := by
  cases n with
  | zero => rfl
  | succ n =>
    cases ho : u.down.issueOrder with
    | nil => simp only [State.deliverHeld, ho]
    | cons j rest =>
      have hwait := h j (by rw [ho]; rfl)
      cases hx : (u.down.slot j).state with
      | waiting q p => simp only [State.deliverHeld, ho, hx]
      | free | held | stale =>
        rw [hx] at hwait
        cases hwait

theorem State.deliverHeld_held {n : Nat} {rest : List (Fin 8)} {q : MemRequest} {p : Purpose} {st : Status}
    {data : Payload} (ho : u.down.issueOrder = j :: rest) (h : (u.down.slot j).state = .held q p st data) :
    u.deliverHeld (n + 1) = (u.completeOldest j .free p st data).deliverHeld n := by
  simp only [State.deliverHeld, ho, h]

/-- The HELD slots at the head of the issue order complete in their turn, up to the first WAITING one. -/
theorem State.deliverHeld_chain (chain rest : List (Fin 8)) (n : Nat) (hn : chain.length ≤ n)
    (ho : u.down.issueOrder = chain ++ rest) (hnodup : (chain ++ rest).Nodup)
    (hsame : ∀ j ∈ chain ++ rest, u.down.slot j = s.down.slot j)
    (hheld : ∀ j ∈ chain, ∃ q p st data, (s.down.slot j).state = .held q p st data)
    (hrest : ∀ j ∈ rest.head?, (s.down.slot j).state.isWaiting = true) :
    u.deliverHeld n = chain.foldl s.completeHeld u := by
  induction chain generalizing u n with
  | nil =>
    refine State.deliverHeld_done n fun j hj => ?_
    rw [ho, List.nil_append] at hj
    rw [hsame j (List.mem_of_mem_head? hj)]
    exact hrest j hj
  | cons j chain ih =>
    obtain ⟨q, p, st, data, hj⟩ := hheld j List.mem_cons_self
    obtain ⟨n, rfl⟩ : ∃ m, n = m + 1 := ⟨n - 1, by simp only [List.length_cons] at hn; omega⟩
    have hu : u.down.slot j = s.down.slot j := hsame j List.mem_cons_self
    obtain ⟨hfirst, hnodup⟩ := List.nodup_cons.mp hnodup
    rw [State.deliverHeld_held ho (by rw [hu, hj]), List.foldl_cons, State.completeHeld_eq hj hu]
    refine ih n (by simpa using hn) ?_ hnodup (fun k hk => ?_) fun k hk => hheld k (List.mem_cons_of_mem j hk)
    · rw [State.completeOldest_order, ho]
      rfl
    · have hjk : j ≠ k := fun h => hfirst (h ▸ hk)
      rw [State.completeOldest_slot _ _ _ _ _ hjk, hsame k (List.mem_cons_of_mem j hk)]

/-- The oldest request completes, and the HELD ones behind it. -/
theorem State.completeOldest_chain {chain rest : List (Fin 8)} (ho : s.down.issueOrder = i :: (chain ++ rest))
    (hnodup : s.down.issueOrder.Nodup)
    (hheld : ∀ j ∈ chain, ∃ q p st data, (s.down.slot j).state = .held q p st data)
    (hrest : ∀ j ∈ rest.head?, (s.down.slot j).state.isWaiting = true)
    (after : SlotState) (p : Purpose) (st : Status) (data : Payload) :
    (s.completeOldest i after p st data).deliverHeld 8 =
      chain.foldl s.completeHeld (State.complete p st data { s with down := { s.down with
        slots := s.down.slots.set i ⟨after, (s.down.slot i).owes⟩, issueOrder := chain ++ rest } }) := by
  rw [ho] at hnodup
  have hlength := hnodup.length_le_card
  obtain ⟨hi, hnodup⟩ := List.nodup_cons.mp hnodup
  have hcomplete : s.completeOldest i after p st data = State.complete p st data { s with down := { s.down with
      slots := s.down.slots.set i ⟨after, (s.down.slot i).owes⟩, issueOrder := chain ++ rest } } := by
    have htail : (s.setSlotState i after).down.issueOrder.tail = chain ++ rest := congrArg List.tail ho
    rw [State.completeOldest]
    dsimp only
    rw [htail]
    rfl
  rw [← hcomplete]
  refine State.deliverHeld_chain chain rest 8 ?_ ?_ hnodup (fun k hk => ?_) hheld hrest
  · simp only [List.length_cons, List.length_append, Fintype.card_fin] at hlength
    omega
  · rw [State.completeOldest_order, ho]
    rfl
  · exact State.completeOldest_slot s _ _ _ _ fun h => hi (h ▸ hk)

theorem exec_responseTimerExpiry (h : s.current) : exec (.responseTimerExpiry i) s = .next (s.expire i) := by
  obtain ⟨hr, hw⟩ := h
  show Host.Outcome.next _ = _
  rw [State.afterWords_none hw, if_neg (by simp [show s.pins.rstnAsserted = false from hr])]

/-- Settles O27: the response to the oldest slot, the expiry of its timer, and the completions of reads and writes. -/
theorem theOldestRequestCompletes : Obligations.TheOldestRequestCompletes := by
  refine ⟨fun s i chain rest q p hw hx ho hnodup hheld hrest => ?_, fun s id n o backing view data =>
    ⟨rfl, rfl, rfl, rfl, rfl, rfl⟩⟩
  have hold : s.down.issueOrder.head? = some i := by rw [ho]; rfl
  have hchain := State.completeOldest_chain ho hnodup hheld hrest
  refine ⟨fun howes st data => ?_, fun hr => ?_⟩
  · rw [exec_downstreamResponse hw, State.respond_oldest howes hx hold, hchain, howes]
    rfl
  · rw [exec_responseTimerExpiry ⟨hr, hw⟩, State.expire_oldest hx hold, hchain]
    rfl

end Sys2Proof.Machine
end

section
/-! SUPPORT. The arbiter's grant (O23), and the observation of a forwarded write (O24): R57, R58, R88, R92, R116, R121,
R123, R126, R128, R145. -/

namespace Sys2Proof.Machine

variable {s : State} {i : Fin 8} {who : Requester} {q : MemRequest} {p : Purpose}

/-! #### The requester granted and its slot -/

theorem exec_arbiterGrant (h : s.current) : exec .arbiterGrant s = .next s.grant := by
  obtain ⟨hr, hw⟩ := h
  show Host.Outcome.next _ = _
  rw [State.afterWords_none hw, if_neg (by simp [show s.pins.rstnAsserted = false from hr])]

theorem DownPort.candidates_eq (d : DownPort) :
    d.candidates = if d.lock = none then d.lastGranted.cycle else [.path] := by
  cases h : d.lock <;> simp [DownPort.candidates, h]

theorem State.grantee_eq {before after : List Requester} (hc : s.down.candidates = before ++ who :: after)
    (hb : ∀ w ∈ before, s.offer w = none) (ho : s.offer who = some (q, p)) : s.grantee = some who := by
  have hbefore : before.find? (fun w => (s.offer w).isSome) = none :=
    List.find?_eq_none.mpr fun w hw => by simp [hb w hw]
  rw [State.grantee, hc, List.find?_append, hbefore, Option.none_or, List.find?_cons_of_pos (by rw [ho]; rfl)]

theorem DownPort.freeSlot_eq {d : DownPort} (hi : (d.slot i).state = .free)
    (hj : ∀ j, j < i → (d.slot j).state ≠ .free) :
    d.freeSlot = some i :=
  find?_finRange_eq_some (decide_eq_true hi) fun j h => decide_eq_false (hj j h)

theorem State.grant_issues (hf : s.down.freeSlot = some i) (hg : s.grantee = some who)
    (ho : s.offer who = some (q, p)) : s.grant = s.issueInto i who q p := by
  simp only [State.grant, hf, hg, ho]

theorem State.grant_none (h : (∀ i, (s.down.slot i).state ≠ .free) ∨ ∀ w ∈ s.down.candidates, s.offer w = none) :
    s.grant = s := by
  obtain h | h := h
  · have hnone : s.down.freeSlot = none := List.find?_eq_none.mpr fun i _ => by simpa using h i
    simp only [State.grant, hnone]
  · have hnone : s.grantee = none := List.find?_eq_none.mpr fun w hw => by simp [h w hw]
    cases hf : s.down.freeSlot <;> simp only [State.grant, hf, hnone]

/-! #### What the requester's own part changes -/

theorem State.settleHold_mode : s.settleHold.cm.mode = s.cm.mode ∧ s.settleHold.cm.flags = s.cm.flags := by
  rw [State.settleHold]
  split <;> simp [State.holdInForce]

/-- The requester a purpose belongs to. -/
def Purpose.requester : Purpose → Requester
  | .writeBack _ => .writeBack
  | .fill _ => .fill
  | .ringRecord | .ringProduced => .ring
  | .mirror => .mirror
  | .forwardedRead _ _ | .forwardedWrite _ _ | .counterRead _ _ | .dirRead | .descRead | .lockedRead | .unlockingWrite
  | .release | .configRead => .path

theorem State.offerRing_purpose (h : s.offerRing = some (q, p)) : p = .ringRecord ∨ p = .ringProduced := by
  simp only [State.offerRing] at h
  split at h
  · cases h
  · split at h <;> cases h
    · exact .inl rfl
    · exact .inr rfl

theorem State.requester_of_offer (h : s.offer who = some (q, p)) : p.requester = who := by
  cases who with
  | writeBack =>
    obtain ⟨i, -, he⟩ := Option.map_eq_some_iff.mp h
    cases he
    rfl
  | fill =>
    obtain ⟨i, -, he⟩ := Option.map_eq_some_iff.mp h
    cases he
    rfl
  | path =>
    obtain hp | ⟨id, n, rfl⟩ | ⟨o, b, rfl⟩ | ⟨id, v, rfl⟩ := State.offerPath_purpose (s := s) h
    · simp only [List.mem_cons, List.not_mem_nil, or_false] at hp
      obtain rfl | rfl | rfl | rfl | rfl | rfl := hp <;> rfl
    all_goals rfl
  | ring => obtain rfl | rfl := State.offerRing_purpose h <;> rfl
  | mirror =>
    obtain ⟨w, -, he⟩ := Option.map_eq_some_iff.mp h
    cases he
    rfl

/-- The requester's part of a grant leaves the port's slots, the lines and the rest of the bridge. -/
theorem State.requesterIssued_keeps : let u := s.requesterIssued q p
    u.down.slots = s.down.slots ∧ u.down.issueOrder = s.down.issueOrder ∧ u.down.lastGranted = s.down.lastGranted ∧
    u.up = s.up ∧ u.acc.lines = s.acc.lines ∧ u.acc.order = s.acc.order ∧ u.link = s.link ∧ u.pins = s.pins ∧
    u.ring.queue = s.ring.queue ∧ u.cm.mode = s.cm.mode ∧ u.cm.flags = s.cm.flags := by
  have hfinish (t : State) : t.finishPath.cm.mode = t.cm.mode ∧ t.finishPath.cm.flags = t.cm.flags :=
    State.settleHold_mode
  cases p with
  | forwardedRead | counterRead => simp [State.requesterIssued, hfinish]
  | forwardedWrite => cases q <;> simp [State.requesterIssued, State.observe, hfinish]
  | mirror => cases h : s.cm.mirror.next <;> simp [State.requesterIssued, h]
  | writeBack | fill | dirRead | descRead | lockedRead | unlockingWrite | release | configRead | ringRecord
  | ringProduced => exact ⟨rfl, rfl, rfl, rfl, rfl, rfl, rfl, rfl, rfl, rfl, rfl⟩

/-- What the requester's part of a grant changes. -/
theorem State.requesterIssued_changes (h : p.requester = who) : let u := s.requesterIssued q p
    u.acc.writeQueue = (if who = .writeBack then s.acc.writeQueue.tail else s.acc.writeQueue) ∧
    u.acc.fillQueue = (if who = .fill then s.acc.fillQueue.tail else s.acc.fillQueue) ∧
    u.ring = (if who = .ring then { s.ring with issued := true } else s.ring) ∧
    u.walker = (if p ∈ [.dirRead, .descRead, .lockedRead, .unlockingWrite, .release] then
      { s.walker with issued := true } else s.walker) ∧
    u.down.lock = (if p = .lockedRead then some s.walker.descAddr else s.down.lock) ∧
    (p = .configRead → u.cm.configRead = .inFlight false) := by
  subst h
  cases p with
  | forwardedRead | counterRead => simp [State.requesterIssued, Purpose.requester]
  | forwardedWrite => cases q <;> simp [State.requesterIssued, State.observe, Purpose.requester]
  | mirror => cases h : s.cm.mirror.next <;> simp [State.requesterIssued, h, Purpose.requester]
  | writeBack | fill | dirRead | descRead | lockedRead | unlockingWrite | release | configRead | ringRecord
  | ringProduced => simp [State.requesterIssued, Purpose.requester]

/-- The purposes whose issue finishes the request that the Request Path holds (R116). -/
def Purpose.finishesPath : Purpose → Bool
  | .forwardedRead _ _ | .forwardedWrite _ _ | .counterRead _ _ => true
  | .dirRead | .descRead | .lockedRead | .unlockingWrite | .release | .fill _ | .writeBack _ | .configRead
  | .ringRecord | .ringProduced | .mirror => false

theorem State.requesterIssued_path :
    (s.requesterIssued q p).path = if p.finishesPath = true then none else s.path := by
  cases p with
  | forwardedRead | counterRead => exact State.finishPath_path
  | forwardedWrite => cases q <;> exact State.finishPath_path
  | mirror => cases h : s.cm.mirror.next <;> simp [State.requesterIssued, h, Purpose.finishesPath]
  | writeBack | fill | dirRead | descRead | lockedRead | unlockingWrite | release | configRead | ringRecord
  | ringProduced => rfl

/-- The port after a request is issued into a FREE slot (R123, R128). -/
theorem State.issueInto_port (i : Fin 8) (who : Requester) : let u := s.issueInto i who q p
    (∀ j, u.down.slot j = if i = j then { s.down.slot i with state := .waiting q p } else s.down.slot j) ∧
    u.down.issueOrder = s.down.issueOrder ++ [i] ∧ u.down.lastGranted = who := by
  rw [State.issueInto]
  dsimp only
  obtain ⟨hslots, horder, hlast, -⟩ := State.requesterIssued_keeps (q := q) (p := p)
    (s := s.withDown { s.down.setSlot i { s.down.slot i with state := .waiting q p } with
      issueOrder := s.down.issueOrder ++ [i], lastGranted := who })
  exact ⟨fun j => (DownPort.slot_congr hslots j).trans (DownPort.slot_setSlot s.down i j _), horder, hlast⟩

/-- Settles O23: a grant, no grant, and what the write-back and the fill engine offer. -/
theorem theArbiterGrantsInItsCycle : Obligations.TheArbiterGrantsInItsCycle := by
  refine ⟨fun s i who before after q p h hi hj hc hb ho => ?_, fun s hw h => ?_, fun s => ⟨fun i rest hq => ?_,
    fun i rest hq => ?_, fun hq => ?_, fun hq => ?_⟩⟩
  · have hgrant := State.grant_issues (DownPort.freeSlot_eq hi hj)
      (State.grantee_eq ((s.down.candidates_eq).trans hc) hb ho) ho
    obtain ⟨hslot, horder, hlast⟩ := State.issueInto_port (s := s) (q := q) (p := p) i who
    generalize hs' : s.withDown { s.down.setSlot i { s.down.slot i with state := .waiting q p } with
      issueOrder := s.down.issueOrder ++ [i], lastGranted := who } = s'
    have hissue : s.issueInto i who q p = s'.requesterIssued q p := by
      rw [← hs']
      rfl
    obtain ⟨-, -, -, hup, hlines, huse, hlink, hpins, hqueue, hmode, hflags⟩ :=
      State.requesterIssued_keeps (s := s') (q := q) (p := p)
    obtain ⟨hwrite, hfill, hring, hwalker, hlock, hread⟩ :=
      State.requesterIssued_changes (s := s') (q := q) (State.requester_of_offer ho)
    have hpath := State.requesterIssued_path (s := s') (q := q) (p := p)
    rw [← hissue, ← hs'] at *
    refine ⟨_, (exec_arbiterGrant h).trans (congrArg _ hgrant), ?_, fun j => ?_, fun j hne => ?_, horder, hlast, hup,
      hlines, huse, hlink, hpins, hqueue, hmode, hflags, hwrite, hfill, hring, hwalker, hlock, hread, ?_⟩
    · rw [hslot, if_pos rfl]
    · rw [hslot]
      split
      · next hij => rw [hij]
      · rfl
    · rw [hslot, if_neg (Ne.symm hne)]
    · rw [hpath]
      cases p <;> rfl
  · show Host.Outcome.next _ = _
    rw [State.afterWords_none hw, State.grant_none h, ite_self]
  · simp only [State.offer, hq, List.head?_cons, Option.map_some]
  · simp only [State.offer, hq, List.head?_cons, Option.map_some]
  · simp only [State.offer, hq, List.head?_nil, Option.map_none]
  · simp only [State.offer, hq, List.head?_nil, Option.map_none]

/-! #### The observation of a forwarded write -/

theorem State.offer_forward_ready {r : Request} {addr : Addr} {direct : Bool}
    (hp : s.path = some ⟨r, .forward addr direct⟩) (h : s.offer .path ≠ none) :
    s.offer .path = some (forwardRequest r addr direct) := by
  simp only [State.offer, State.offerPath, hp] at h ⊢
  split at h
  · next hs => rw [if_pos hs]
  · exact absurd rfl h

theorem State.observe_eq (hw : s.cm.recognised = []) (addr : Addr) (shape : Shape) (data : List Byte) :
    s.observe addr shape data = { s with
      windows := (s.invalidate addr shape.bytes).windows
      cm := { s.cm with recognised := controlWords s.cm.cbBase addr shape data } } := by
  have hcm : (s.invalidate addr shape.bytes).cm = s.cm := rfl
  rw [State.observe]
  dsimp only
  rw [hcm, hw, List.nil_append]
  rfl

/-- A recognised word's own row does what its word does, or is refused for its operands (R145, R151). -/
theorem exec_of_takesItsWord {c : Instr} (h : takesItsWord c = true) :
    (∃ w : ControlWord, c = w.instr) ∨ ∀ s, exec c s = .refused .illFormedCommand := by
  cases c with
  | requestNone tag => exact .inl ⟨.request 0 tag, rfl⟩
  | activate tag => exact .inl ⟨.request Command.activate.code tag, rfl⟩
  | deactivate tag => exact .inl ⟨.request Command.deactivate.code tag, rfl⟩
  | purge tag => exact .inl ⟨.request Command.purge.code tag, rfl⟩
  | flush tag => exact .inl ⟨.request Command.flush.code tag, rfl⟩
  | ringRestart tag => exact .inl ⟨.request Command.ringRestart.code tag, rfl⟩
  | clearStatus tag => exact .inl ⟨.request Command.clearStatus.code tag, rfl⟩
  | consumedWrite index => exact .inl ⟨.consumed index, rfl⟩
  | refusedCommand code tag =>
    by_cases hc : unknownCode code = true
    · have hle : 7 ≤ code.toNat := of_decide_eq_true hc
      refine .inl ⟨.request code tag, ?_⟩
      rw [ControlWord.instr, if_neg (by bv_omega), Command.ofCode_unknown hle]
    · exact .inr fun s => if_neg hc
  | _ => cases h

/-- A command that what a word changes concerns does what it does once the word ahead has been taken (R145). -/
theorem exec_of_meetsWords {c : Instr} {word : ControlWord} {rest : List ControlWord} (h : meetsWords c = true)
    (hr : s.running) (hw : s.cm.recognised = word :: rest) : exec c s = exec c (s.wordTaken.takeWord word) := by
  cases c with
  | requestTaken | arbiterGrant | downstreamResponse | responseTimerExpiry | ageTimerExpiry | drainBegin
  | discard | ringReleased | ringTakeRecord | ringRestartCarryOut | read | writeCbBase | forceBypass | clearFlags
  | rstnAssert => exact congrArg Host.Outcome.next (State.afterWords_behind hr hw)
  | _ => cases h

/-- Settles O24: the grant of a settled forwarded write, and the words it delivers. -/
theorem forwardedWritesAreObservedAtIssue : Obligations.ForwardedWritesAreObservedAtIssue := by
  refine ⟨fun s i r addr direct h hp hk hg hf => ?_, fun s word rest hr hw => ?_⟩
  · have hready : s.offer .path ≠ none := by
      have := List.find?_some hg
      exact Option.isSome_iff_ne_none.mp this
    have hoffer := State.offer_forward_ready hp hready
    rw [forwardRequest_write hk] at hoffer
    dsimp only
    rw [exec_arbiterGrant h, State.grant_issues hf hg hoffer, State.issueInto]
    dsimp only [State.requesterIssued]
    rw [State.observe_eq (by exact h.2)]
    rfl
  · have htakes : s.takesWord word := ⟨hr, fun w hm => by rw [hw] at hm; exact (Option.some.inj hm).symm⟩
    refine ⟨s.wordTaken.takeWord word, (exec_word word s).trans (congrArg _ (State.onWord_taken htakes)), ?_,
      fun c hc => ?_⟩
    · rw [State.takeWord_recognised]
      show s.cm.recognised.tail = rest
      rw [hw, List.tail_cons]
    · obtain hc | ⟨hc, hne⟩ := hc
      · exact exec_of_meetsWords hc hr hw
      · obtain ⟨w, rfl⟩ | hrefused := exec_of_takesItsWord hc
        · rw [exec_word, exec_word, State.onWord_behind hr hw fun he => hne (by rw [he])]
        · rw [hrefused, hrefused]

end Sys2Proof.Machine
end

section
/-! SUPPORT. The change to HALTED (O21): R81, R94, R95, R104, R107, R109, R147, R148, R161. -/

namespace Sys2Proof.Machine

variable {s : State} {r : Request} {stage : Stage}

/-! #### What each part of the change leaves of the Control Monitor -/

theorem State.modeHalted_cm : s.modeHalted.cm = { s.cm with
    mode := .halted
    fatalCause := .writebackError
    hold := if s.cm.hold = some .drainStart then none else s.cm.hold
    placed := if s.cm.placed = some .drainStart then none else s.cm.placed
    leaving := .stay
    flags := { s.cm.flags with fatal := true }
    mirror := { s.cm.mirror with
      modePending := s.cm.mirror.modePending || decide (Mode.halted ≠ s.cm.mode)
        || decide (FatalCause.writebackError ≠ s.cm.fatalCause)
      statusPending := s.modeHalted.cm.mirror.statusPending } } := rfl

theorem State.settleHold_cm : s.settleHold.cm = { s.cm with
    hold := s.settleHold.cm.hold
    placed := s.settleHold.cm.placed
    configRead := s.settleHold.cm.configRead } := by
  rw [State.settleHold]
  split <;> rfl

/-- A hold that takes effect was the one placed, and none was in force. -/
theorem State.settleHold_holds : (s.settleHold.cm.hold = s.cm.hold ∧ s.settleHold.cm.placed = s.cm.placed) ∨
    (s.cm.hold = none ∧ s.settleHold.cm.hold = s.cm.placed ∧ s.settleHold.cm.placed = none) := by
  rw [State.settleHold]
  split
  · next hp hh _ => exact .inr ⟨hh, hp.symm, rfl⟩
  · exact .inl ⟨rfl, rfl⟩

/-! #### The request held -/

/-- The requests that the change to HALTED refuses (R81, R104). -/
abbrev State.haltRefuses (s : State) (r : Request) (stage : Stage) : Prop :=
  (∃ op backing, stage = .operation op backing) ∨ (∃ backing order, stage = .drainRead backing order) ∨
  (∃ addr direct, stage = .forward addr direct ∧ 0 < r.shape.bytes ∧ ∃ j, (s.line j).meets addr r.shape.bytes)

/-- The read on a line whose fill the change to HALTED withdraws (R109). -/
abbrev State.haltWithdraws (s : State) (stage : Stage) : Prop :=
  ∃ j view, stage = .onLine j view ∧ j ∈ s.acc.fillQueue

theorem State.meetsLine_iff_meets {addr : Addr} {n : Nat} :
    s.meetsLine addr n = true ↔ 0 < n ∧ ∃ j, (s.line j).meets addr n := by
  rw [State.meetsLine, List.any_eq_true]
  refine ⟨fun ⟨j, _, hj⟩ => ?_, fun ⟨hn, j, hj⟩ => ⟨j, List.mem_finRange j, (Line.overlapped_iff hn _).mpr hj⟩⟩
  have hn : 0 < n := by
    simp only [Line.overlapped, overlaps, Bool.and_eq_true, decide_eq_true_eq] at hj
    exact hj.2.1
  exact ⟨hn, j, (Line.overlapped_iff hn _).mp hj⟩

theorem State.haltPath_refused (hp : s.path = some ⟨r, stage⟩) (h : s.haltRefuses r stage) :
    s.haltPath = s.refuse r := by
  obtain ⟨op, backing, rfl⟩ | ⟨backing, order, rfl⟩ | ⟨addr, direct, rfl, hmeet⟩ := h
  · simp only [State.haltPath, hp]
  · simp only [State.haltPath, hp]
  · simp only [State.haltPath, hp, Request.bytes]
    exact if_pos (State.meetsLine_iff_meets.mpr hmeet)

theorem State.haltPath_withdrawn (hp : s.path = some ⟨r, stage⟩) (h : s.haltWithdraws stage) :
    s.haltPath = (s.answerRequest r (faultAnswer r.bytes)).finishPath := by
  obtain ⟨j, view, rfl, hj⟩ := h
  simp only [State.haltPath, hp, if_pos hj]

theorem State.haltPath_kept (hp : s.path = some ⟨r, stage⟩) (hr : ¬ s.haltRefuses r stage)
    (hw : ¬ s.haltWithdraws stage) : s.haltPath = s := by
  cases stage with
  | operation op backing => exact absurd (.inl ⟨op, backing, rfl⟩) hr
  | drainRead backing order => exact absurd (.inr (.inl ⟨backing, order, rfl⟩)) hr
  | forward addr direct =>
    have hmeet : ¬ s.meetsLine addr r.bytes = true := fun h =>
      hr (.inr (.inr ⟨addr, direct, rfl, State.meetsLine_iff_meets.mp h⟩))
    simp only [State.haltPath, hp, if_neg hmeet]
  | onLine j view =>
    have hj : j ∉ s.acc.fillQueue := fun h => hw ⟨j, view, rfl, h⟩
    simp only [State.haltPath, hp, if_neg hj]
  | walking | counterRead => simp only [State.haltPath, hp]

/-- What becomes of the request held, seen at the Control Monitor. -/
theorem State.haltPath_settles : s.haltPath = s ∨ ∃ u : State, s.haltPath = u.settleHold ∧ u.cm = { s.cm with
    flags := { s.cm.flags with dropped := u.cm.flags.dropped }
    mirror := { s.cm.mirror with statusPending := u.cm.mirror.statusPending } } := by
  have hanswer (r : Request) (a : Answer) : (s.answerRequest r a).cm = s.cm := by simp
  cases hp : s.path with
  | none => exact .inl (by simp only [State.haltPath, hp])
  | some held =>
    obtain ⟨r, stage⟩ := held
    by_cases hr : s.haltRefuses r stage
    · refine .inr ⟨(if r.isWrite then s.raiseDropped else s.answerRequest r (faultAnswer r.bytes)).withPath none,
        State.haltPath_refused hp hr, ?_⟩
      cases r.isWrite with
      | true =>
        rw [if_pos rfl, State.raiseDropped_eq]
        rfl
      | false => rw [if_neg (by nofun), State.withPath_cm, hanswer]
    · by_cases hw : s.haltWithdraws stage
      · refine .inr ⟨(s.answerRequest r (faultAnswer r.bytes)).withPath none, State.haltPath_withdrawn hp hw, ?_⟩
        rw [State.withPath_cm, hanswer]
      · exact .inl (State.haltPath_kept hp hr hw)

theorem State.haltPath_cm : s.haltPath.cm = { s.cm with
    hold := s.haltPath.cm.hold
    placed := s.haltPath.cm.placed
    configRead := s.haltPath.cm.configRead
    flags := { s.cm.flags with dropped := s.haltPath.cm.flags.dropped }
    mirror := { s.cm.mirror with statusPending := s.haltPath.cm.mirror.statusPending } } := by
  obtain h | ⟨u, h, hu⟩ := s.haltPath_settles
  · rw [h]
  · have hsettle := State.settleHold_cm (s := u)
    rw [h]
    rw [hsettle, hu]

theorem State.haltPath_holds : (s.haltPath.cm.hold = s.cm.hold ∧ s.haltPath.cm.placed = s.cm.placed) ∨
    (s.cm.hold = none ∧ s.haltPath.cm.hold = s.cm.placed ∧ s.haltPath.cm.placed = none) := by
  obtain h | ⟨u, h, hu⟩ := s.haltPath_settles
  · rw [h]
    exact .inl ⟨rfl, rfl⟩
  · have hold : u.cm.hold = s.cm.hold := by rw [hu]
    have placed : u.cm.placed = s.cm.placed := by rw [hu]
    rw [h, ← hold, ← placed]
    exact State.settleHold_holds

/-! #### The request in progress -/

theorem State.haltRequest_ended {c : Command} {tag : Byte} (h : s.cm.inProgress = some (.block c tag))
    (hc : c = .flush ∨ c = .deactivate) : s.haltRequest =
      State.formAck ⟨c.code, tag, some .failed, 0⟩ { s with cm := { s.cm with inProgress := none } } := by
  rw [← State.endRequest_block h]
  obtain rfl | rfl := hc <;> simp only [State.haltRequest, h]

theorem State.haltRequest_link (h : s.cm.inProgress = some .link) :
    s.haltRequest = { s with cm := { s.cm with inProgress := none } } := by
  rw [← State.endRequest_link h .failed none]
  simp only [State.haltRequest, h]

theorem State.haltRequest_goesOn (h : s.cm.inProgress ≠ some .link)
    (hc : ∀ c tag, s.cm.inProgress = some (.block c tag) → c ≠ .flush ∧ c ≠ .deactivate) : s.haltRequest = s := by
  cases hp : s.cm.inProgress with
  | none => simp only [State.haltRequest, hp]
  | some x =>
    cases x with
    | link => exact absurd hp h
    | block c tag =>
      obtain ⟨hflush, hdeactivate⟩ := hc c tag hp
      cases c with
      | flush => exact absurd rfl hflush
      | deactivate => exact absurd rfl hdeactivate
      | activate | purge | ringRestart | clearStatus => simp only [State.haltRequest, hp]

theorem State.haltRequest_keeps : s.haltRequest.cm.mode = s.cm.mode ∧
    s.haltRequest.cm.fatalCause = s.cm.fatalCause ∧ s.haltRequest.cm.flags.fatal = s.cm.flags.fatal ∧
    s.haltRequest.cm.flags.dropped = s.cm.flags.dropped ∧ s.haltRequest.cm.leaving = s.cm.leaving ∧
    s.haltRequest.cm.hold = s.cm.hold ∧ s.haltRequest.cm.placed = s.cm.placed ∧
    s.haltRequest.cm.mirror.modePending = s.cm.mirror.modePending := by
  by_cases hl : s.cm.inProgress = some .link
  · rw [State.haltRequest_link hl]
    exact ⟨rfl, rfl, rfl, rfl, rfl, rfl, rfl, rfl⟩
  · by_cases hc : ∃ c tag, s.cm.inProgress = some (.block c tag) ∧ (c = .flush ∨ c = .deactivate)
    · obtain ⟨c, tag, hp, hc⟩ := hc
      rw [State.haltRequest_ended hp hc, State.formAck_eq]
      exact ⟨rfl, rfl, rfl, rfl, rfl, rfl, rfl, rfl⟩
    · rw [State.haltRequest_goesOn hl fun c tag hp => not_or.mp fun h => hc ⟨c, tag, hp, h⟩]
      exact ⟨rfl, rfl, rfl, rfl, rfl, rfl, rfl, rfl⟩

/-! #### The freeze -/

theorem State.freezeCache_line (j : Fin 64) :
    s.freezeCache.line j = (s.line j).freeze (decide (j ∈ s.acc.writeQueue)) := by
  refine Eq.trans (AccCache.line_congr ?_ j)
    (AccCache.line_mapLines s.acc (fun i l => l.freeze (decide (i ∈ s.acc.writeQueue))) j)
  simp only [State.freezeCache, State.withAcc]

theorem Line.freeze_keeps (w : Bool) (l : Line) : (l.freeze w).age = none ∧ (l.freeze w).flushMark = false ∧
    (l.freeze w).record = l.record ∧ (l.freeze w).pending = l.pending := by
  rw [Line.freeze]
  split <;> exact ⟨rfl, rfl, rfl, rfl⟩

theorem Line.freeze_withdrawn {l : Line} (h : l.state = .writing) : (l.freeze true).state = .dirty ∧
    (l.freeze true).evict = false ∧ (l.freeze true).redirty = false ∧ (l.freeze true).writeCopy = .zero := by
  rw [Line.freeze, h]
  exact ⟨rfl, rfl, rfl, rfl⟩

theorem Line.freeze_goesOn {l : Line} {w : Bool} (h : l.state ≠ .writing ∨ w = false) :
    l.freeze w = { l with flushMark := false, age := none } := by
  refine if_neg fun hw => ?_
  obtain ⟨hw, hl⟩ := (Bool.and_eq_true _ _).mp hw
  exact h.elim (· (of_decide_eq_true hl)) fun hf => by rw [hf] at hw; cases hw

/-! #### The change as a whole -/

theorem State.enterHalted_cm (h : s.cm.mode = .active ∨ s.cm.mode = .draining) :
    s.enterHalted.cm.mode = .halted ∧ s.enterHalted.cm.fatalCause = .writebackError ∧
    s.enterHalted.cm.flags.fatal = true ∧ s.enterHalted.cm.mirror.modePending = true ∧
    s.enterHalted.cm.leaving = .stay := by
  obtain ⟨hmode, hcause, hfatal, -, hleaving, -, -, hpending⟩ :=
    State.haltRequest_keeps (s := s.modeHalted.haltPath.freezeCache)
  obtain ⟨-, -, -, -, -, -, hcm, -⟩ := s.modeHalted.haltPath.freezeCache_frame
  rw [State.enterHalted_eq, hmode, hcause, hfatal, hleaving, hpending, hcm, State.haltPath_cm, State.modeHalted_cm]
  refine ⟨rfl, rfl, rfl, ?_, rfl⟩
  obtain h | h := h <;> simp [h]

/-- A hold that is none, or not DRAIN_START, stays; DRAIN_START is dropped (R148). -/
theorem hold_dropped_ne (x : Option Hold) : (if x = some Hold.drainStart then none else x) ≠ some .drainStart := by
  split
  · nofun
  · assumption

theorem hold_dropped_none {x : Option Hold} (h : ∀ y, x = some y → y = .drainStart) :
    (if x = some Hold.drainStart then none else x) = none := by
  cases x with
  | none => rfl
  | some y => rw [if_pos (by rw [h y rfl])]

theorem State.enterHalted_holds :
    (s.enterHalted.cm.hold ≠ some .drainStart ∧ s.enterHalted.cm.placed ≠ some .drainStart) ∧
    ((∀ h, s.cm.hold = some h ∨ s.cm.placed = some h → h = .drainStart) →
      s.enterHalted.cm.hold = none ∧ s.enterHalted.cm.placed = none) ∧
    (∀ h, s.cm.hold = some h → h ≠ .drainStart → s.enterHalted.cm.hold = some h) := by
  obtain ⟨-, -, -, -, -, hhold, hplaced, -⟩ := State.haltRequest_keeps (s := s.modeHalted.haltPath.freezeCache)
  obtain ⟨-, -, -, -, -, -, hcm, -⟩ := s.modeHalted.haltPath.freezeCache_frame
  have hholds := State.haltPath_holds (s := s.modeHalted)
  rw [← hcm] at hholds
  rw [← hhold, ← hplaced, ← State.enterHalted_eq, State.modeHalted_cm] at hholds
  obtain ⟨hh, hp⟩ | ⟨hnone, hh, hp⟩ := hholds
  all_goals rw [hh, hp]
  · exact ⟨⟨hold_dropped_ne _, hold_dropped_ne _⟩,
      fun h => ⟨hold_dropped_none fun y hy => h y (.inl hy), hold_dropped_none fun y hy => h y (.inr hy)⟩,
      fun h hs hne => (if_neg (by rw [hs]; simpa using hne)).trans hs⟩
  · refine ⟨⟨hold_dropped_ne _, nofun⟩, fun h => ⟨hold_dropped_none fun y hy => h y (.inr hy), rfl⟩,
      fun h hs hne => ?_⟩
    rw [hs, if_neg (by simpa using hne)] at hnone
    cases hnone

end Sys2Proof.Machine
end

section
/-! SUPPORT. A write-back that completes ERROR (O21): R94, R95, R148. -/

namespace Sys2Proof.Machine

variable {s : State} {r : Request} {stage : Stage} {i : Fin 64}

/-! #### The request held, and the one in progress, at the change -/

theorem State.modeHalted_frame : s.modeHalted.up = s.up ∧ s.modeHalted.path = s.path ∧
    s.modeHalted.walker = s.walker ∧ s.modeHalted.windows = [] ∧ s.modeHalted.acc = s.acc ∧
    s.modeHalted.down = s.down ∧ s.modeHalted.ring = s.ring :=
  ⟨rfl, rfl, rfl, rfl, rfl, rfl, rfl⟩

/-- The change to HALTED leaves the requests, the window entries and DROPPED as the request held leaves them. -/
theorem State.enterHalted_fromPath : s.enterHalted.path = s.modeHalted.haltPath.path ∧
    s.enterHalted.up = s.modeHalted.haltPath.up ∧ s.enterHalted.windows = [] ∧
    s.enterHalted.cm.flags.dropped = s.modeHalted.haltPath.cm.flags.dropped := by
  obtain ⟨hup, hpath, -, hwindows, -⟩ := s.modeHalted.haltPath.freezeCache.haltRequest_frame
  obtain ⟨hup', hpath', -, hwindows', -, -, hcm, -⟩ := s.modeHalted.haltPath.freezeCache_frame
  obtain ⟨-, hwindows'', -⟩ := s.modeHalted.haltPath_frame
  obtain ⟨-, -, -, hdropped, -⟩ := State.haltRequest_keeps (s := s.modeHalted.haltPath.freezeCache)
  rw [State.enterHalted_eq, hup, hpath, hwindows, hdropped, hup', hpath', hwindows', hcm, hwindows'']
  exact ⟨rfl, rfl, rfl, rfl⟩

theorem State.answerRequest_finishPath {t : State} {id : Nat} (hid : r.readId = some id) (a : Answer) :
    (t.answerRequest r a).finishPath.up = { t.up with reads := t.up.reads.map fun (e : ReadEntry) =>
      if e.id = id then { e with answer := some a } else e } := by
  rw [(State.finishPath_frame _).1, State.answerRequest_id hid]

theorem State.refuse_dropped {t : State} : (t.refuse r).cm.flags.dropped =
    if r.kind = .write then true else t.cm.flags.dropped := by
  have hanswer (a : Answer) : (t.answerRequest r a).cm = t.cm := by simp
  have hflags (u : State) : u.finishPath.cm.flags = u.cm.flags := State.settleHold_mode.2
  rw [State.refuse, hflags, Request.isWrite_eq]
  by_cases hw : r.kind = .write
  · rw [if_pos (decide_eq_true hw), if_pos hw, State.raiseDropped_eq]
  · rw [if_neg (by simpa using hw), if_neg hw, hanswer]

theorem State.refuse_up {t : State} (h : r.kind = .write) : (t.refuse r).up = t.up := by
  rw [State.refuse, (State.finishPath_frame _).1, if_pos (by rw [Request.isWrite_eq, h]; rfl), State.raiseDropped_eq]

/-- R81, R104, R109: what becomes of the request held at the change to HALTED. -/
theorem State.enterHalted_path (hp : s.path = some ⟨r, stage⟩) :
    (s.haltRefuses r stage ∨ s.haltWithdraws stage → s.enterHalted.path = none) ∧
    (∀ id, s.haltRefuses r stage ∧ r.kind = .read ∨ s.haltWithdraws stage → r.readId = some id →
      s.enterHalted.up = { s.up with reads := s.up.reads.map fun (e : ReadEntry) =>
        if e.id = id then { e with answer := some ⟨.fault, List.replicate r.shape.bytes 0xFF⟩ } else e }) ∧
    (s.haltRefuses r stage ∧ r.kind = .write → s.enterHalted.up = s.up ∧ s.enterHalted.cm.flags.dropped = true) ∧
    (¬ (s.haltRefuses r stage ∧ r.kind = .write) → s.enterHalted.cm.flags.dropped = s.cm.flags.dropped) ∧
    (¬ s.haltRefuses r stage → ¬ s.haltWithdraws stage → s.enterHalted.path = s.path ∧ s.enterHalted.up = s.up) := by
  obtain ⟨hpath, hup, -, hdropped⟩ := State.enterHalted_fromPath (s := s)
  have hmpath : s.modeHalted.path = some ⟨r, stage⟩ := hp
  have hrefused (h : s.haltRefuses r stage) : s.modeHalted.haltPath = s.modeHalted.refuse r :=
    State.haltPath_refused hmpath h
  have hwithdrawn (h : s.haltWithdraws stage) :
      s.modeHalted.haltPath = (s.modeHalted.answerRequest r (faultAnswer r.bytes)).finishPath :=
    State.haltPath_withdrawn hmpath h
  have hkept (h : ¬ s.haltRefuses r stage) (hw : ¬ s.haltWithdraws stage) : s.modeHalted.haltPath = s.modeHalted :=
    State.haltPath_kept hmpath h hw
  rw [hpath, hup, hdropped]
  refine ⟨fun h => ?_, fun id h hid => ?_, fun ⟨h, hk⟩ => ?_, fun h => ?_, fun h hw => ?_⟩
  · obtain h | h := h
    · rw [hrefused h]
      exact State.finishPath_path
    · rw [hwithdrawn h]
      exact State.finishPath_path
  · obtain ⟨h, hk⟩ | h := h
    · rw [hrefused h, State.refuse_read hk hid, (State.settleHold_frame _).1]
      rfl
    · rw [hwithdrawn h, State.answerRequest_finishPath hid]
      rfl
  · rw [hrefused h, State.refuse_up hk, State.refuse_dropped, if_pos hk]
    exact ⟨rfl, rfl⟩
  · by_cases hr : s.haltRefuses r stage
    · rw [hrefused hr, State.refuse_dropped, if_neg fun hk => h ⟨hr, hk⟩]
      rfl
    · by_cases hw : s.haltWithdraws stage
      · have hflags (u : State) : u.finishPath.cm.flags = u.cm.flags := State.settleHold_mode.2
        have hanswer (a : Answer) : (s.modeHalted.answerRequest r a).cm = s.modeHalted.cm := by simp
        rw [hwithdrawn hw, hflags, hanswer]
        rfl
      · rw [hkept hr hw]
        rfl
  · rw [hkept h hw]
    exact ⟨rfl, rfl⟩

/-- The Control Monitor's request in progress and its ACKs, before that request is dealt with. -/
theorem State.enterHalted_before : s.modeHalted.haltPath.freezeCache.cm.inProgress = s.cm.inProgress ∧
    s.modeHalted.haltPath.freezeCache.cm.mirror.lastAck = s.cm.mirror.lastAck ∧
    s.modeHalted.haltPath.freezeCache.cm.mirror.acks = s.cm.mirror.acks := by
  obtain ⟨-, -, -, -, -, -, hcm, -⟩ := s.modeHalted.haltPath.freezeCache_frame
  rw [hcm, State.haltPath_cm, State.modeHalted_cm]
  exact ⟨rfl, rfl, rfl⟩

/-- R107, R148, R152: what becomes of the request in progress at the change to HALTED. -/
theorem State.enterHalted_request :
    (∀ c tag, s.cm.inProgress = some (.block c tag) → c = .flush ∨ c = .deactivate →
      s.enterHalted.cm.inProgress = none ∧
      s.enterHalted.cm.mirror.lastAck = some ⟨c.code, tag, some .failed, 0⟩ ∧
      (s.cm.mirror.acks.length < 4 →
        s.enterHalted.cm.mirror.acks = s.cm.mirror.acks ++ [⟨c.code, tag, some .failed, 0⟩])) ∧
    (s.cm.inProgress = some .link → s.enterHalted.cm.inProgress = none ∧
      s.enterHalted.cm.mirror.lastAck = s.cm.mirror.lastAck ∧ s.enterHalted.cm.mirror.acks = s.cm.mirror.acks) ∧
    (∀ c tag, s.cm.inProgress = some (.block c tag) → c = .activate ∨ c = .ringRestart →
      s.enterHalted.cm.inProgress = some (.block c tag) ∧ s.enterHalted.cm.mirror.acks = s.cm.mirror.acks) := by
  obtain ⟨hin, hlast, hacks⟩ := State.enterHalted_before (s := s)
  rw [State.enterHalted_eq]
  generalize s.modeHalted.haltPath.freezeCache = f at *
  refine ⟨fun c tag h hc => ?_, fun h => ?_, fun c tag h hc => ?_⟩
  · rw [State.haltRequest_ended (hin.trans h) hc, State.formAck_eq]
    refine ⟨rfl, rfl, fun hlen => ?_⟩
    rw [← hacks] at hlen ⊢
    exact if_neg (Nat.not_le.mpr hlen)
  · rw [State.haltRequest_link (hin.trans h)]
    exact ⟨rfl, hlast, hacks⟩
  · rw [State.haltRequest_goesOn]
    · exact ⟨hin.trans h, hacks⟩
    · rw [hin, h]
      nofun
    · intro c' tag' h'
      rw [hin, h] at h'
      cases h'
      obtain rfl | rfl := hc <;> exact ⟨nofun, nofun⟩

/-- R109: the lines and the engines' queues at the change to HALTED. -/
theorem State.enterHalted_lines : s.enterHalted.acc.fillQueue = [] ∧ s.enterHalted.acc.writeQueue = [] ∧
    ∀ j, s.enterHalted.line j = (s.line j).freeze (decide (j ∈ s.acc.writeQueue)) := by
  obtain ⟨-, -, -, -, hacc, -⟩ := s.modeHalted.haltPath.freezeCache.haltRequest_frame
  obtain ⟨-, -, hpath, -⟩ := s.modeHalted.haltPath_frame
  have hline (j : Fin 64) := State.freezeCache_line (s := s.modeHalted.haltPath) j
  refine ⟨?_, ?_, fun j => ?_⟩
  · rw [State.enterHalted_eq, hacc]
    rfl
  · rw [State.enterHalted_eq, hacc]
    rfl
  · rw [State.enterHalted_eq, State.line, hacc]
    refine (hline j).trans ?_
    rw [State.line, hpath]
    rfl

/-! #### The failed write-back -/

/-- The line of a failed write-back is DIRTY again, and its HALT record is handed over (R94). -/
def State.writeBackFailed (i : Fin 64) (s : State) : State :=
  (s.handRecord (haltRecord (s.line i))).withAcc
    (s.acc.setLine i ((s.line i).written .dirty none (s.line i).flushMark))

theorem State.completeWriteBack_error (h : (s.line i).state = .writing) : s.completeWriteBack i .error =
    if s.cm.mode = .active ∨ s.cm.mode = .draining then (s.writeBackFailed i).enterHalted else s.writeBackFailed i := by
  have hfailed :
      (s.setLine i ((s.line i).written .dirty none (s.line i).flushMark)).handRecord (haltRecord (s.line i)) =
      s.writeBackFailed i := s.handRecord_withAcc _ _
  have hmode : (s.writeBackFailed i).cm.mode = s.cm.mode := State.handRecord_mode _
  rw [State.completeWriteBack, if_pos h]
  rw [State.writeBackError, hfailed, hmode]
  cases s.cm.mode <;> rfl

theorem State.writeBackFailed_line (j : Fin 64) : (s.writeBackFailed i).line j =
    if i = j then (s.line i).written .dirty none (s.line i).flushMark else s.line j :=
  AccCache.line_setLine s.acc i j _

theorem State.writeBackFailed_frame : (s.writeBackFailed i).up = s.up ∧ (s.writeBackFailed i).path = s.path ∧
    (s.writeBackFailed i).walker = s.walker ∧ (s.writeBackFailed i).down = s.down ∧
    (s.writeBackFailed i).acc.fillQueue = s.acc.fillQueue ∧
    (s.writeBackFailed i).acc.writeQueue = s.acc.writeQueue := by
  obtain ⟨hup, hpath, hwalker, -, -, hdown, -⟩ := s.handRecord_frame (haltRecord (s.line i))
  exact ⟨hup, hpath, hwalker, hdown, rfl, rfl⟩

theorem State.writeBackFailed_cm : (s.writeBackFailed i).cm.inProgress = s.cm.inProgress ∧
    (s.writeBackFailed i).cm.hold = s.cm.hold ∧ (s.writeBackFailed i).cm.placed = s.cm.placed ∧
    (s.writeBackFailed i).cm.flags.dropped = s.cm.flags.dropped ∧
    (s.writeBackFailed i).cm.mirror.lastAck = s.cm.mirror.lastAck ∧
    (s.writeBackFailed i).cm.mirror.acks = s.cm.mirror.acks ∧ (s.writeBackFailed i).cm.mode = s.cm.mode ∧
    (s.writeBackFailed i).cm.fatalCause = s.cm.fatalCause := by
  have hcm : (s.writeBackFailed i).cm = (s.handRecord (haltRecord (s.line i))).cm := rfl
  rw [hcm, State.handRecord_cm]
  exact ⟨rfl, rfl, rfl, rfl, rfl, rfl, rfl, rfl⟩

/-- The failed line stays in use at its backing address. -/
theorem State.writeBackFailed_meets (h : (s.line i).state = .writing) (j : Fin 64) (addr : Addr) (n : Nat) :
    ((s.writeBackFailed i).line j).meets addr n ↔ (s.line j).meets addr n := by
  rw [State.writeBackFailed_line]
  split
  · next hij =>
    rw [← hij]
    exact and_congr ⟨fun _ => by rw [Line.inUse, h]; nofun, fun _ => nofun⟩ Iff.rfl
  · rfl

theorem State.writeBackFailed_refuses (h : (s.line i).state = .writing) :
    (s.writeBackFailed i).haltRefuses r stage ↔ s.haltRefuses r stage := by
  simp only [State.haltRefuses, State.writeBackFailed_meets h]

/-- Settles O21: a write-back that completes ERROR in ACTIVE or DRAINING, and in HALTED. -/
theorem aFailedWriteBackHalts : Obligations.AFailedWriteBackHalts := by
  refine ⟨fun s i hw hm => ?_, fun s i hw hm => ⟨?_, ?_, ?_⟩⟩
  · obtain ⟨hup, hpath, hwalker, hdown, hfill, hwrite⟩ := State.writeBackFailed_frame (s := s) (i := i)
    obtain ⟨hin, hhold, hplaced, hdropped, hlast, hacks, hmode, hcause⟩ := State.writeBackFailed_cm (s := s) (i := i)
    have hline (j : Fin 64) := State.writeBackFailed_line (s := s) (i := i) j
    have hrefuses (r : Request) (stage : Stage) := State.writeBackFailed_refuses (r := r) (stage := stage) hw
    have hring : (s.writeBackFailed i).ring = (s.handRecord (haltRecord (s.line i))).ring := rfl
    have herror := State.completeWriteBack_error hw
    rw [if_pos hm] at herror
    generalize s.writeBackFailed i = v at *
    obtain ⟨hhalted, hcause', hfatal, hpending, hleaving⟩ := State.enterHalted_cm (s := v) (by rwa [hmode])
    obtain ⟨⟨hdrain, hdrain'⟩, hdropHold, hkeepHold⟩ := State.enterHalted_holds (s := v)
    obtain ⟨hfills, hwrites, hlines⟩ := State.enterHalted_lines (s := v)
    obtain ⟨-, -, hwindows, hflag⟩ := State.enterHalted_fromPath (s := v)
    obtain ⟨hwalker', hdown', hring', -⟩ := v.enterHalted_frame
    obtain ⟨hended, hlink, hgoesOn⟩ := State.enterHalted_request (s := v)
    rw [hhold, hplaced] at hdropHold
    rw [hhold] at hkeepHold
    rw [hin, hacks] at hended hgoesOn
    rw [hin, hlast, hacks] at hlink
    rw [hwrite] at hlines
    refine ⟨v.enterHalted, herror, hhalted, hcause', hfatal, hpending, hwindows, hleaving, ?_, hdrain, hdrain',
      hdropHold, hkeepHold, fun j => ?_, hfills, hwrites, hring'.trans hring, hdown'.trans hdown,
      hwalker'.trans hwalker, fun j hj => ⟨fun hwj hq => ?_, fun hg => ?_⟩, fun r stage hp => ?_,
      hended, hlink, hgoesOn⟩
    · rw [hlines, hline, if_pos rfl, Line.freeze_goesOn (.inl (by rw [Line.written]; nofun))]
      rfl
    · obtain ⟨hage, hmark, hrecord, hlist⟩ := Line.freeze_keeps (decide (j ∈ s.acc.writeQueue)) (v.line j)
      rw [hlines, hage, hmark, hrecord, hlist, hline]
      refine ⟨rfl, rfl, ?_, ?_⟩
      all_goals
        split
        · next hij =>
          rw [← hij]
          rfl
        · rfl
    · rw [hlines, hline, if_neg (Ne.symm hj), decide_eq_true hq]
      exact Line.freeze_withdrawn hwj
    · rw [hlines, hline, if_neg (Ne.symm hj), Line.freeze_goesOn (hg.imp_right decide_eq_false)]
    · have hheld := State.enterHalted_path (s := v) (hpath.trans hp)
      simp only [hrefuses, State.haltWithdraws, hfill, hup, hdropped, hpath] at hheld
      exact hheld
  · rw [State.completeWriteBack_error hw, if_neg (by rw [hm]; nofun)]
    rfl
  · rw [State.handRecord_mode, hm]
  · rw [State.handRecord_cm]

end Sys2Proof.Machine
end
